-- ==== Sys2Proof/Word.lean ====
section
/-! DEFINITION. The words of the xrandom PRNG core: 64-bit lanes, seeds and responses, 66-bit command words.

Every value is an unsigned integer, bit 0 the least significant (00_scope R7). The arithmetic of the rules is that of
`BitVec`: `+` and `*` wrap modulo `2^64` (R8, R9), `>>>` and `<<<` are logical (R10, R11), `^^^` and `|||` act on each
bit (R12). -/

namespace Sys2Proof

/-- A 64-bit unsigned value: a lane, a seed, an accumulator, a response (R5 `W`, R7). -/
abbrev Word := BitVec 64

/-- A word of the command port, 66 bits: `op` in bits 65:64, `arg` in bits 63:0 (30_encoding R60). -/
abbrev CommandWord := BitVec 66

end Sys2Proof
end

