-- ==== Sys2Proof/Syntax.lean ====
section
/-! DEFINITION. The three commands of the core (30_encoding R61), one constructor per row of the opcode table. -/

namespace Sys2Proof

/-- A command. The step commands carry no operand: their `arg` bits are ignored and "every value means the same
command" (30_encoding R62, U3), so the decoder drops them. The code `op = 3` is no command (R65). -/
inductive Instr where
  /-- `INIT seed` (`op = 0`): fill the lanes from the seed (40_seeder R85). -/
  | init (seed : Word)
  /-- `NEXT_U64` (`op = 1`): one step of the stream, answered as an integer (41_generator R101). -/
  | nextU64
  /-- `NEXT_DOUBLE` (`op = 2`): one step of the stream, answered as a double (42_output_mapper R125). -/
  | nextDouble
  deriving DecidableEq, Repr

end Sys2Proof
end

