-- ==== Sys2Proof/WellFormed.lean ====
section
/-! DEFINITION. Well-formedness. Every value of `Instr` is a legal command, because its one operand is a 64-bit word
and every 64-bit seed is legal (30_encoding R62); the check with content is that of a command as the assembler text
spells it, whose seed literal may be too large for 64 bits (R68). -/

namespace Sys2Proof

/-- Every command is well formed: "every one of the `2^64` values is legal" for the seed (R62), and the step commands
have no operand. What the host must not send, `op = 3`, is not an `Instr`: the decoder rejects it (R65). -/
def Instr.wellFormed : Instr → Bool
  | .init _ => true
  | .nextU64 => true
  | .nextDouble => true

/-- A command as a line of text spells it (R68): the seed is a literal of any size until it is checked. -/
inductive SourceCommand where
  | init (literal : Nat)
  | nextU64
  | nextDouble
  deriving DecidableEq, Repr

/-- The seed literal is "a 64-bit unsigned literal" (R68). -/
def SourceCommand.wellFormed : SourceCommand → Bool
  | .init literal => decide (literal < 2 ^ 64)
  | .nextU64 => true
  | .nextDouble => true

end Sys2Proof
end

