-- ==== Sys2Proof/Decode.lean ====
section
/-! DEFINITION. Decoding and encoding of command words (30_encoding R60 to R62, R65, R70), and the same decoder for the
bits as spec/opcode_table.json numbers them. -/

namespace Sys2Proof

/-- `op`, bits 65:64 of the command word (R60). -/
def opField (w : CommandWord) : BitVec 2 := w.extractLsb' 64 2

/-- `arg`, bits 63:0 of the command word (R60). -/
def argField (w : CommandWord) : Word := w.extractLsb' 0 64

/-- The command word `{op, arg}`, as a number `op * 2^64 + arg` (R60). -/
def commandWord (op : BitVec 2) (arg : Word) : CommandWord := op ++ arg

/-- What a command word decodes to: a command, or the reserved code with its `arg` (R65). -/
inductive Decoded where
  | command (i : Instr)
  | reserved (arg : Word)
  deriving DecidableEq, Repr

/-- Decode, total on every 66-bit word; it reads nothing but the word (R70). -/
def decode (w : CommandWord) : Decoded :=
  if opField w = 0#2 then .command (.init (argField w))
  else if opField w = 1#2 then .command .nextU64
  else if opField w = 2#2 then .command .nextDouble
  else .reserved (argField w)

/-- The opcode of a command (R61). -/
def Instr.opcode : Instr → BitVec 2
  | .init _ => 0
  | .nextU64 => 1
  | .nextDouble => 2

/-- The `arg` of a command's canonical spelling: the seed of `INIT`, 0 for the step commands (R62, R70). -/
def Instr.canonicalArg : Instr → Word
  | .init seed => seed
  | .nextU64 => 0
  | .nextDouble => 0

/-- Encode, on the canonical spellings (R70). -/
def encode (i : Instr) : CommandWord := commandWord i.opcode i.canonicalArg

/-- The command word whose bits are `w`, numbered as the opcode table numbers them (bit 65 the top bit of `op`), for a
row of `nbits` bits in whole bytes; the bits from `nbits` on are 0. The port carries 66 bits, so a number that needs
more is no command word. -/
def tableCommandWord (nbits w : Nat) : Option CommandWord :=
  if w % 2 ^ nbits < 2 ^ 66 then some (BitVec.ofNat 66 (w % 2 ^ nbits)) else none

/-- The command the decoder reads from a word of the opcode table; none where it refuses. -/
def decodeTableWord (nbits w : Nat) : Option Instr :=
  match tableCommandWord nbits w with
  | none => none
  | some c =>
    match decode c with
    | .command i => some i
    | .reserved _ => none

end Sys2Proof
end

