-- ==== Sys2Proof/Config.lean ====
section
/-! DEFINITION. The parameters the source fixes (00_scope R5), as constants, and the free values of the model: what
the lanes hold from a reset until the first `INIT` (10_state R33). -/

namespace Sys2Proof.Config

/-- `LANES`: the number of lanes, "exactly four lanes" (R5, R21). -/
def lanes : Nat := 4

/-- `GAMMA`: the constant added to the accumulator for each lane (R5, R80). -/
def gamma : Word := 0x9E3779B97F4A7C15

/-- `MUL1`: the first multiplier (R5, R81). -/
def mul1 : Word := 0xBF58476D1CE4E5B9

/-- `MUL2`: the second multiplier (R5, R82). -/
def mul2 : Word := 0x94D049BB133111EB

/-- `SH1`: right shift of the first XOR-shift (R5, R81). -/
def sh1 : Nat := 30

/-- `SH2`: right shift of the second XOR-shift (R5, R82). -/
def sh2 : Nat := 27

/-- `SH3`: right shift of the final XOR-shift (R5, R83). -/
def sh3 : Nat := 31

/-- `A_SHIFT`: left shift that forms `t` in the generator step (R5, R101 step 2). -/
def aShift : Nat := 17

/-- `B_ROT`: left rotation of lane 3 in the generator step (R5, R101 step 8). -/
def bRot : Nat := 45

/-- `DROP`: right shift of the mapper, the low bits discarded (R5, R120). -/
def drop : Nat := 11

/-- `SIG`: the bits kept by the mapper; the scale is `2^-53` (R5, R120). -/
def sig : Nat := 53

/-- What lane `i` holds after the reset number `k`, until a command writes it. DESIGN CHOICE (log entry 2): the spec says
"unspecified" and "a model must not pick zero or any other value" (R33), so this is a function with no body: no proof
can learn a value of it, or that two of its values are equal. Safe, but for a claim that compares two cores or two runs,
which share the function. -/
opaque resetLane : Nat → Fin 4 → Word

end Sys2Proof.Config
end

