-- ==== Sys2Proof/Machine/State.lean ====
section
/-! DEFINITION. The state of the core, the inputs of its host, and the ways a run can stop. -/

namespace Sys2Proof.Machine

/-- The GeneratorState: "an ordered fixed-size sequence of four unsigned 64-bit integers" (10_state R20), four distinct
registers with no hardwired lane, alias or bank (R21). -/
structure Lanes where
  s0 : Word
  s1 : Word
  s2 : Word
  s3 : Word
  deriving DecidableEq, Repr

/-- What the host does at the core's boundary (10_state R29; 70_reset_and_hazards section 5). -/
inductive HostInput where
  /-- It presents a word at the command port (R46, R60). -/
  | command (w : CommandWord)
  /-- It takes the oldest pending word from the response port (R48). -/
  | takeResponse
  /-- It asserts reset (R190), a command being in flight or presented at the same moment, or not (R191). -/
  | reset (presented : Option CommandWord)
  deriving DecidableEq, Repr

/-- The state of one core (R34): the four lanes, the ghosts of the spec, the two ports, and the model's own count of
resets.

The core has no program counter, flag, control register, memory or mode (R27 to R29, R32). -/
structure State where
  /-- `s[0]` to `s[3]` (R20). -/
  lanes : Lanes
  /-- Ghost: an `INIT` has executed since reset (R30). The hardware has no such bit, and nothing the hardware does depends on
  it. -/
  seeded : Bool
  /-- Ghost: the step count `n`, the step commands executed since the last `INIT` (R27). -/
  steps : Nat
  /-- The host inputs not yet consumed, in the order the core accepts them (R46, R47; log entry 4). -/
  inputs : List HostInput
  /-- The response words sent and not yet taken by the host, oldest first (R48, R190). -/
  responses : List Word
  /-- The model's own field: how many reset events there have been, so that each reset draws lanes of its own (log entry
  2). -/
  resets : Nat
  /-- Ghost: a step command has executed while `seeded` was false, so the model has refused the run, and keeps the
  refusal for the rest of it (R30, R107, R176; log entry 3). The hardware detects nothing (R107). -/
  refusedByModel : Bool
  deriving DecidableEq, Repr

/-- The lanes after the reset number `k`: four free values, the same for every core and every run (R33, R190; DESIGN
CHOICE, log entry 2). -/
def resetLanes (k : Nat) : Lanes :=
  ⟨Config.resetLane k 0, Config.resetLane k 1, Config.resetLane k 2, Config.resetLane k 3⟩

/-- The core right after reset (R33): `seeded` false, step count 0, no command in flight, no response pending, the
lanes unspecified (log entry 2). DESIGN CHOICE (log entries 2 and 10): this is one constant, so two cores (R172), or two
runs, that start from it hold equal lanes; the spec does not say whether they do. Unsafe for a claim that compares
them. -/
def State.reset : State where
  lanes := resetLanes 0
  seeded := false
  steps := 0
  inputs := []
  responses := []
  resets := 0
  refusedByModel := false

/-- The faults: none. "The model has no fault outcome because nothing in the hardware faults" (60_exceptions R176,
R160). -/
inductive Fault where
  deriving DecidableEq, Repr

/-- Why a step has no meaning. The hardware stops nowhere (60_exceptions R160, R167). -/
inductive Refusal where
  /-- Raised by an arm of `exec` for an instruction that has no meaning yet; no arm raises it. Safe. -/
  | notModelled (mnemonic : String)
  /-- Raised when the word presented has `op = 3`, the reserved code, for which the hardware has "no defined behaviour"
  (30_encoding R65). Safe: it errs toward unprovable (R176). -/
  | reservedCommand
  deriving DecidableEq, Repr

/-- What the next host input asks of the core: run a command in a state that has consumed it, or a transition that
executes no command. -/
inductive Fetched where
  | run (i : Instr) (s : State)
  | settled (o : Host.Outcome State Fault Refusal)
  deriving Repr

end Sys2Proof.Machine
end

