-- ==== Sys2Proof/Machine/Ops.lean ====
section
/-! DEFINITION. The named operations on lanes and state, the word operations the rules share, and the intake of host
inputs. There is no exception to take and none to return from (60_exceptions R160, R166, R167), and no memory to read
or write (20_memory R40). -/

namespace Sys2Proof.Machine

/-- `z ^ (z >> k)`, the XOR-shift of the Seeder's stages: the unshifted and the shifted copy of the same `z`, the shift
logical (40_seeder R81 to R83; R10). -/
def xorShiftRight (z : Word) (k : Nat) : Word := z ^^^ (z >>> k)

/-- `rotl(x, k) = (x << k) | (x >> (64 - k))`, for `1 <= k <= 63` (R13, R100). The core uses `k = 45` only. -/
def rotl (x : Word) (k : Nat) : Word := (x <<< k) ||| (x >>> (64 - k))

/-- `s[i]`: a read of lane `i` (R14). -/
def Lanes.read (S : Lanes) (i : Fin 4) : Word :=
  match i with
  | 0 => S.s0
  | 1 => S.s1
  | 2 => S.s2
  | 3 => S.s3

/-- `s[i] <- v`: a write of lane `i` (R14). -/
def Lanes.write (S : Lanes) (i : Fin 4) (v : Word) : Lanes :=
  match i with
  | 0 => { S with s0 := v }
  | 1 => { S with s1 := v }
  | 2 => { S with s2 := v }
  | 3 => { S with s3 := v }

/-- The all-zero state `(0, 0, 0, 0)` (R23). -/
def Lanes.zero : Lanes := ⟨0, 0, 0, 0⟩

/-- The lanes replaced as a whole: a lane "is only ever read or written whole" and no half-done state shows (R44,
R45). -/
def State.setLanes (s : State) (S : Lanes) : State := { s with lanes := S }

/-- The ghosts after an `INIT`: `seeded <- true ; n <- 0` (R85). -/
def State.markSeeded (s : State) : State := { s with seeded := true, steps := 0 }

/-- The ghost after a step command: `n <- n + 1` (R101). -/
def State.countStep (s : State) : State := { s with steps := s.steps + 1 }

/-- The model's refusal of a step command executed while `seeded` is false, once made kept (R30, R107, R176; log entry
3). It writes a ghost only: the hardware goes on. -/
def State.refuseIfUnseeded (s : State) : State := { s with refusedByModel := s.refusedByModel || !s.seeded }

/-- `respond(v)`: place `v` on the response port, after the responses of earlier commands (R14, R48). -/
def State.respond (s : State) (v : Word) : State := { s with responses := s.responses ++ [v] }

/-- The host takes the oldest pending response; with none pending there is nothing to take (R48; log entry 5). -/
def State.takeOldest (s : State) : State := { s with responses := s.responses.tail }

/-- The inputs that remain once the next one has been consumed. -/
def State.consume (s : State) (rest : List HostInput) : State := { s with inputs := rest }

/-- The reset event (R190): every field as after reset, the lanes drawn afresh; what the host presents later is still to
come, and a refusal already made is kept for the rest of the run (R176). -/
def State.resetEvent (s : State) : State :=
  { State.reset with
    lanes := resetLanes (s.resets + 1), inputs := s.inputs, resets := s.resets + 1
    refusedByModel := s.refusedByModel }

/-- The host presents a command word as the next input; a number that is no command word cannot be presented. -/
def State.present (s : State) (c : Option CommandWord) : State :=
  match c with
  | some w => s.consume (.command w :: s.inputs)
  | none => s

/-- What the next host input asks: nothing presented leaves the core as it is (R47, R174); a command word is decoded
from the port (R52, R70); the reserved code is refused (R65); a reset discards whatever command is in flight or
presented with it (R190, R191). -/
def fetch (s : State) : Fetched :=
  match s.inputs with
  | [] => .settled (.next s)
  | .command w :: rest =>
    match decode w with
    | .command i => .run i (s.consume rest)
    | .reserved _ => .settled (.refused .reservedCommand)
  | .takeResponse :: rest => .settled (.next (s.consume rest).takeOldest)
  | .reset _ :: rest => .settled (.next (s.consume rest).resetEvent)

end Sys2Proof.Machine
end

