-- ==== Sys2Proof/Machine/Flags.lean ====
section
/-! DEFINITION. The flag computations: there are none. "The core has no status flag, no condition code, no carry or
overflow bit, no error bit, no busy or done bit that a rule reads" (10_state R28); overflow wraps silently (60_exceptions
R161); the mapper's conversion is exact and raises no floating-point flag (42_output_mapper R124). -/
end

