-- ==== Sys2Proof/Machine/Operands.lean ====
section
/-! DEFINITION. The operand and response forms. A command names no register and no address: its operands are the `arg`
of `INIT`, taken whole, and the four lanes, which are implied (30_encoding R60, R62; 10_state R22). There is no
addressing mode, immediate form or extension (20_memory R40, R62). -/

namespace Sys2Proof.Machine

/-- `seed = arg[63:0]`, "taken whole and unchanged" (R62). -/
def seedOperand (arg : Word) : Word := arg

/-- The order in which `INIT` visits the lanes: "in order [0,1,2,3]" (R20, R85). -/
def laneOrder : List (Fin 4) := [0, 1, 2, 3]

/-- The response of `NEXT_U64`: the integer `result`, "as a number in bits 63:0" (R63). -/
def integerResponse (result : Word) : Word := result

end Sys2Proof.Machine
end

