-- ==== Sys2Proof/Machine/Generator.lean ====
section
/-! DEFINITION. The Generator: the one transition of the core and the command `NEXT_U64` (41_generator). -/

namespace Sys2Proof.Machine

/-- Step 1: `result := s[0] +w s[3]`, of the lanes as they stood before the transition (R101, R102). -/
def generatorOutput (S : Lanes) : Word := S.read 0 + S.read 3

/-- Step 2: `t := s[1] << 17` (R101, R104). -/
def generatorShift (S : Lanes) : Word := S.read 1 <<< Config.aShift

/-- Steps 2 to 8 of R101, in the source's order: each reads the lanes as the steps before it left them. -/
def generatorNext (S : Lanes) : Lanes :=
  let t := generatorShift S
  let S := S.write 2 (S.read 2 ^^^ S.read 0)
  let S := S.write 3 (S.read 3 ^^^ S.read 1)
  let S := S.write 1 (S.read 1 ^^^ S.read 2)
  let S := S.write 0 (S.read 0 ^^^ S.read 3)
  let S := S.write 2 (S.read 2 ^^^ t)
  S.write 3 (rotl (S.read 3) Config.bRot)

/-- What both step commands do (R101, R125): advance the stream by one step and send one response, the `result` in the
form the command gives it. The hardware does not check that the lanes have been seeded: it "computes rule R101 on
whatever bits the registers hold and responds", while the model refuses the run, which the ghost `refusedByModel` records
(R107, R176; log entry 3). -/
def advanceStream (form : Word → Word) (s : State) : Host.Outcome State Fault Refusal :=
  .next (((s.setLanes (generatorNext s.lanes)).respond (form (generatorOutput s.lanes))).countStep).refuseIfUnseeded

/-- `NEXT_U64` (R101). -/
def execNextU64 (s : State) : Host.Outcome State Fault Refusal := advanceStream integerResponse s

end Sys2Proof.Machine
end

