-- ==== Sys2Proof/Machine/OutputMapper.lean ====
section
/-! DEFINITION. The Output Mapper: the exact conversion of a 64-bit integer to a binary64 pattern and the command
`NEXT_DOUBLE` (42_output_mapper). -/

namespace Sys2Proof.Machine

/-- `m = x >> 11`, the top 53 bits of `x`, as a number (R120). -/
def mantissa (x : Word) : Nat := (x >>> Config.drop).toNat

/-- `to_double(x) = m * 2^-53`, the real number (R120). -/
def toDouble (x : Word) : ℚ := (mantissa x : ℚ) / 2 ^ Config.sig

/-- The position of the highest set bit of a non-zero number (R122). -/
def highestSetBit (m : Nat) : Nat := m.log2

/-- `to_double_bits(x)`, the binary64 pattern of `to_double(x)`, computed with no rounding step (R122). -/
def toDoubleBits (x : Word) : Word :=
  let m := mantissa x
  if m = 0 then 0
  else
    let p := highestSetBit m
    let E := 970 + p
    let F := (m <<< (52 - p)) % 2 ^ 52
    BitVec.ofNat 64 (E * 2 ^ 52 + F)

/-- The sign, bit 63 of a binary64 pattern (R122). -/
def doubleSign (d : Word) : Bool := d.getLsbD 63

/-- The biased exponent, bits 62:52 (R122). -/
def doubleExponent (d : Word) : Nat := (d.extractLsb' 52 11).toNat

/-- The fraction, bits 51:0 (R122). -/
def doubleFraction (d : Word) : Nat := (d.extractLsb' 0 52).toNat

/-- The real number a binary64 pattern denotes, none for an infinity or a NaN: the layout R122 gives (sign, exponent
biased by 1023, fraction with an implicit leading one for normal numbers; K1). Used by statements only: no command
reads a double. -/
def doubleValue (d : Word) : Option ℚ :=
  let sign : ℚ := if doubleSign d then -1 else 1
  if doubleExponent d = 2047 then none
  else if doubleExponent d = 0 then some (sign * doubleFraction d / 2 ^ 1074)
  else some (sign * (2 ^ 52 + doubleFraction d) * (2 : ℚ) ^ ((doubleExponent d : ℤ) - 1075))

/-- `NEXT_DOUBLE` (R125): the step of `NEXT_U64`, the response `to_double_bits(result)`. -/
def execNextDouble (s : State) : Host.Outcome State Fault Refusal := advanceStream toDoubleBits s

end Sys2Proof.Machine
end

