-- ==== Sys2Proof/Machine/Seeder.lean ====
section
/-! DEFINITION. The Seeder: the mixing pipeline of four stages and the command `INIT` (40_seeder). -/

namespace Sys2Proof.Machine

/-- Stage A, accumulator advance (R80). -/
def stageA (acc : Word) : Word := acc + Config.gamma

/-- Stage B, first XOR-shift and multiply (R81). -/
def stageB (z : Word) : Word := xorShiftRight z Config.sh1 * Config.mul1

/-- Stage C, second XOR-shift and multiply (R82). -/
def stageC (z : Word) : Word := xorShiftRight z Config.sh2 * Config.mul2

/-- Stage D, final XOR-shift (R83). -/
def stageD (z : Word) : Word := xorShiftRight z Config.sh3

/-- `mix(z) = stageD(stageC(stageB(z)))` (R84). -/
def mix (z : Word) : Word := stageD (stageC (stageB z))

/-- One pass of the pipeline: the new accumulator, which is the output of stage A, and one lane value (R84). -/
def smNext (acc : Word) : Word × Word :=
  let acc' := stageA acc
  let z := acc'
  let z := stageB z
  let z := stageC z
  let lane := stageD z
  (acc', lane)

/-- The loop of `INIT`: `(acc, lane) := sm_next(acc); s[i] <- lane`, the accumulator running on from lane to lane (R85,
R86). -/
def fillLanes : List (Fin 4) → Word → Lanes → Lanes
  | [], _, S => S
  | i :: rest, acc, S => fillLanes rest (smNext acc).1 (S.write i (smNext acc).2)

/-- The lanes after `INIT seed` over the lanes `old`, all four of which are overwritten (R85, R24). -/
def seedLanes (seed : Word) (old : Lanes) : Lanes := fillLanes laneOrder (seedOperand seed) old

/-- `INIT seed` (R85): the lanes filled, the ghosts set, no response (R64). Total over all seeds and states (R87). -/
def execInit (seed : Word) (s : State) : Host.Outcome State Fault Refusal :=
  .next (s.setLanes (seedLanes seed s.lanes)).markSeeded

end Sys2Proof.Machine
end

