-- ==== Sys2Proof/Machine/Dispatch.lean ====
section
/-! DEFINITION. One arm per command (30_encoding R61). -/

namespace Sys2Proof.Machine

def exec (i : Instr) (s : State) : Host.Outcome State Fault Refusal :=
  match i with
  | .init seed => Sys2Proof.Machine.execInit seed s
  | .nextU64 => Sys2Proof.Machine.execNextU64 s
  | .nextDouble => Sys2Proof.Machine.execNextDouble s

end Sys2Proof.Machine
end

