-- ==== Sys2Proof/Machine/Step.lean ====
section
/-! DEFINITION. One step of the core: consume the next host input and, if it is a command, execute it whole. -/

namespace Sys2Proof.Machine

/-- One atomic transition (20_memory R44): the next command in acceptance order (R46, R47), a taking of a response, a
reset, or, with nothing presented, no change. -/
def step (s : State) : Host.Outcome State Fault Refusal :=
  match fetch s with
  | .run i s' => exec i s'
  | .settled o => o

/-- `s` with the command word of the opcode table presented as the next host input, where `step` takes its next
command (log entry 4). -/
def State.withFetchWord (s : State) (nbits w : Nat) : State := s.present (tableCommandWord nbits w)

end Sys2Proof.Machine
end

