-- ==== Sys2Proof/Machine/Assembler.lean ====
section
/-! DEFINITION. The textual form of a command sequence, one command a line (30_encoding R68). The hardware reads
command words, never text; this is the form in which the spec writes programs (log entry 7). -/

namespace Sys2Proof.Machine

/-- Why a line is no command. -/
inductive AssemblerError where
  | unknownMnemonic
  | missingSeed
  | badSeed
  | seedTooLarge
  | trailingText
  deriving DecidableEq, Repr

/-- What a line of text gives: nothing (blank, or a comment only), a command, or an error. -/
inductive AssembledLine where
  | blank
  | command (i : Instr)
  | error (e : AssemblerError)
  deriving DecidableEq, Repr

/-- "A `;` starts a comment to the end of the line" (R68). -/
def stripComment (line : List Char) : List Char := line.takeWhile (· != ';')

/-- The words of a line, separated by spaces and tabs; `current` holds the word being read, last character first. -/
def splitWords (current : List Char) : List Char → List (List Char)
  | [] => if current.isEmpty then [] else [current.reverse]
  | c :: rest =>
    if c = ' ' || c = '\t' then
      if current.isEmpty then splitWords [] rest else current.reverse :: splitWords [] rest
    else splitWords (c :: current) rest

/-- The value of a digit in base 16, either case. -/
def digitValue (c : Char) : Option Nat :=
  if '0' ≤ c && c ≤ '9' then some (c.toNat - 48)
  else if 'A' ≤ c && c ≤ 'F' then some (c.toNat - 55)
  else if 'a' ≤ c && c ≤ 'f' then some (c.toNat - 87)
  else none

/-- The value of digits in a base, after those already read, which are worth `value`. -/
def readDigits (base value : Nat) : List Char → Option Nat
  | [] => some value
  | c :: rest =>
    match digitValue c with
    | some d => if d < base then readDigits base (value * base + d) rest else none
    | none => none

/-- A literal, "`0x`... hexadecimal or decimal", at least one digit (R68). -/
def readLiteral : List Char → Option Nat
  | [] => none
  | ['0', 'x'] => none
  | '0' :: 'x' :: digits => readDigits 16 0 digits
  | digits => readDigits 10 0 digits

/-- A command of the text, checked (R68), as a command of the core. -/
def checkSource (c : SourceCommand) : AssembledLine :=
  if c.wellFormed then
    match c with
    | .init literal => .command (.init (BitVec.ofNat 64 literal))
    | .nextU64 => .command .nextU64
    | .nextDouble => .command .nextDouble
  else .error .seedTooLarge

/-- `INIT <seed>`, `NEXT_U64`, `NEXT_DOUBLE`, upper case (R68). -/
def readMnemonic : List Char → Option SourceCommand
  | ['I', 'N', 'I', 'T'] => some (.init 0)
  | ['N', 'E', 'X', 'T', '_', 'U', '6', '4'] => some .nextU64
  | ['N', 'E', 'X', 'T', '_', 'D', 'O', 'U', 'B', 'L', 'E'] => some .nextDouble
  | _ => none

/-- One line of text (R68). -/
def assembleLine (line : List Char) : AssembledLine :=
  match splitWords [] (stripComment line) with
  | [] => .blank
  | mnemonic :: operands =>
    match readMnemonic mnemonic, operands with
    | none, _ => .error .unknownMnemonic
    | some (.init _), [] => .error .missingSeed
    | some (.init _), [literal] =>
      match readLiteral literal with
      | some n => checkSource (.init n)
      | none => .error .badSeed
    | some c, [] => checkSource c
    | some _, _ => .error .trailingText

/-- The command words of a program, one line after another (R68), or the first error. -/
def assemble : List (List Char) → Except AssemblerError (List CommandWord)
  | [] => .ok []
  | line :: rest =>
    match assembleLine line with
    | .error e => .error e
    | .blank => assemble rest
    | .command i =>
      match assemble rest with
      | .ok words => .ok (encode i :: words)
      | .error e => .error e

end Sys2Proof.Machine
end

