-- ==== Sys2Proof/Machine/Stream.lean ====
section
/-! DEFINITION. The stream of a seed (43_stream_properties R140), the responses a sequence of step commands takes from
it (R148), and the inverse of the transition (41_generator R109). These are the spec's own functions for stating
properties; no command computes them. -/

namespace Sys2Proof.Machine

/-- `state(seed, k)`: the lanes after `INIT seed` and `k` step commands (R140). `INIT` reads no lane, so the lanes it
overwrites do not matter. -/
def streamLanes (seed : Word) : Nat → Lanes
  | 0 => seedLanes seed Lanes.zero
  | k + 1 => generatorNext (streamLanes seed k)

/-- `out(seed, k)`: the 64-bit `result` of the `(k+1)`-th step (R140). -/
def streamOut (seed : Word) (k : Nat) : Word := generatorOutput (streamLanes seed k)

/-- Which of the two step commands. -/
inductive StepKind where
  | integer
  | double
  deriving DecidableEq, Repr

/-- The step command of a kind. -/
def StepKind.instr : StepKind → Instr
  | .integer => .nextU64
  | .double => .nextDouble

/-- The response a step command of this kind makes of a `result` (R63, R148). -/
def StepKind.response : StepKind → Word → Word
  | .integer, result => result
  | .double, result => toDoubleBits result

/-- The responses of step commands of the given kinds, the first of which is the `(k+1)`-th step since `INIT seed`
(R148). -/
def streamResponses (seed : Word) : Nat → List StepKind → List Word
  | _, [] => []
  | k, kind :: rest => kind.response (streamOut seed k) :: streamResponses seed (k + 1) rest

/-- The state before a step, from the state after it (R109). -/
def generatorPrevious (S : Lanes) : Lanes :=
  let e := rotl S.s3 19
  let a := S.s0 ^^^ e
  let f := S.s1 ^^^ a
  let g := S.s2 ^^^ a
  let h := f ^^^ g
  let b := h ^^^ (h <<< 17) ^^^ (h <<< 34) ^^^ (h <<< 51)
  let c := f ^^^ b
  let d := e ^^^ b
  ⟨a, b, c, d⟩

/-- Lane by lane XOR of two states, the addition over the two-element field of R103. -/
def Lanes.xor (S T : Lanes) : Lanes := ⟨S.s0 ^^^ T.s0, S.s1 ^^^ T.s1, S.s2 ^^^ T.s2, S.s3 ^^^ T.s3⟩

end Sys2Proof.Machine
end

