-- ==== Sys2Proof/Safety.lean ====
section
/-! DEFINITION. What claims are stated in: the outcomes of the spec's model, runs, the host's contract, the invariants of
the core, and agreement of runs. -/

namespace Sys2Proof.Safety

open Sys2Proof.Machine

/-- Why the model refuses a run (60_exceptions R176): a step command before any `INIT`, which the hardware runs all the
same (R107), or a stop of the core itself. -/
inductive ModelRefusal where
  | unseededStep
  | ofCore (r : Refusal)
  deriving DecidableEq, Repr

/-- One step as the spec's model reports it, the outcomes of R176: the step of the core, refused where the core is, and
from the first step command on that executes while `seeded` is false (R30, R107, R192; log entry 3). -/
def modelStep (s : State) : Host.Outcome State Fault ModelRefusal :=
  match step s with
  | .next t => if t.refusedByModel then .refused .unseededStep else .next t
  | .fault f => .fault f
  | .refused r => .refused (.ofCore r)

/-- `k` steps of one kind, stopping at the first refusal: "a refusal is kept for the rest of the run" (60_exceptions
R176). -/
def runWith {R : Type} (oneStep : State → Host.Outcome State Fault R) : Nat → State → Host.Outcome State Fault R
  | 0, s => .next s
  | k + 1, s =>
    match oneStep s with
    | .next t => runWith oneStep k t
    | .fault f => .fault f
    | .refused r => .refused r

/-- `k` steps of the core. -/
abbrev runSteps : Nat → State → Host.Outcome State Fault Refusal := runWith step

/-- `k` steps as the spec's model reports them (R176). -/
abbrev modelRun : Nat → State → Host.Outcome State Fault ModelRefusal := runWith modelStep

/-- The host never sends `op = 3` (30_encoding R65). -/
def neverSendsReserved : List HostInput → Bool
  | [] => true
  | .command w :: rest =>
    match decode w with
    | .command _ => neverSendsReserved rest
    | .reserved _ => false
  | .takeResponse :: rest => neverSendsReserved rest
  | .reset _ :: rest => neverSendsReserved rest

/-- The host keeps its contract from a core whose `seeded` is as given: it never sends `op = 3` (30_encoding R65), and
after every reset it executes an `INIT` before the first step command (70_reset_and_hazards R192). That commands arrive
as one sequence (R194) is in the type. -/
def obeysContract : Bool → List HostInput → Bool
  | _, [] => true
  | seeded, .command w :: rest =>
    match decode w with
    | .command (.init _) => obeysContract true rest
    | .command .nextU64 => seeded && obeysContract seeded rest
    | .command .nextDouble => seeded && obeysContract seeded rest
    | .reserved _ => false
  | seeded, .takeResponse :: rest => obeysContract seeded rest
  | _, .reset _ :: rest => obeysContract false rest

/-- A seeded core is never all-zero (10_state R23). -/
def NonzeroWhenSeeded (s : State) : Prop := s.seeded = true → s.lanes ≠ Lanes.zero

/-- The lanes of a seeded core are those of the stream of some seed at the step count (43_stream_properties R140;
10_state R27). -/
def OnStream (s : State) : Prop :=
  s.seeded = true → ∃ seed, s.lanes = streamLanes seed s.steps

/-- Two states that differ at most in the lanes, the model's own count of resets, and whether the run is refused. -/
def SameButLanes (s t : State) : Prop :=
  s.seeded = t.seeded ∧ s.steps = t.steps ∧ s.inputs = t.inputs ∧ s.responses = t.responses

/-- Two outcomes that are the same refusal, or next states that agree: wholly if they are seeded, and but for the lanes
if they are not. -/
def AgreeWhereSeeded {R : Type} : Host.Outcome State Fault R → Host.Outcome State Fault R → Prop
  | .next s, .next t => SameButLanes s t ∧ (s.seeded = true → s.lanes = t.lanes)
  | .refused r, .refused q => r = q
  | _, _ => False

/-- Two outcomes that are the same refusal, or next states that agree in the ghosts, the inputs and the number of
responses, and in the lanes if they are seeded. -/
def AgreeButForWords : Host.Outcome State Fault Refusal → Host.Outcome State Fault Refusal → Prop
  | .next s, .next t =>
    s.seeded = t.seeded ∧ s.steps = t.steps ∧ s.inputs = t.inputs ∧ s.responses.length = t.responses.length ∧
      (s.seeded = true → s.lanes = t.lanes)
  | .refused r, .refused q => r = q
  | _, _ => False

end Sys2Proof.Safety
end

