-- ==== Sys2Proof/Certificates/Slice0/Obligations.lean ====
section
/-! DEFINITION. The statements for the provers, from the numbered rules of the spec. -/

open Sys2Proof Sys2Proof.Machine Sys2Proof.Safety

/-! ## Encoding (30_encoding) -/

/-- R60: the command word is `op * 2^64 + arg`, and the two fields are all of it. -/
def Obligations.CommandWordIsOpAndArg : Prop :=
  ∀ w : CommandWord,
    w.toNat = (opField w).toNat * 2 ^ 64 + (argField w).toNat ∧
    (opField w).toNat = w.toNat / 2 ^ 64 ∧
    (argField w).toNat = w.toNat % 2 ^ 64

/-- R61, R62, R70: the opcode map, the seed taken whole, the `arg` of a step command ignored, `op = 3` reserved, and
the canonical spellings as numbers. -/
def Obligations.DecodeFollowsTheOpcodeMap : Prop :=
  (∀ arg, decode (commandWord 0 arg) = .command (.init arg)) ∧
  (∀ arg, decode (commandWord 1 arg) = .command .nextU64) ∧
  (∀ arg, decode (commandWord 2 arg) = .command .nextDouble) ∧
  (∀ arg, decode (commandWord 3 arg) = .reserved arg) ∧
  (∀ seed : Word, (encode (.init seed)).toNat = 0 * 2 ^ 64 + seed.toNat) ∧
  (encode .nextU64).toNat = 1 * 2 ^ 64 + 0 ∧
  (encode .nextDouble).toNat = 2 * 2 ^ 64 + 0

/-- R70: decoding an encoded command gives it back, at every seed, through the decoder and through its table form; and
no other word decodes to an `INIT`, while a word that decodes to a step command agrees with its encoding in `op`. -/
def Obligations.DecodeInvertsEncode : Prop :=
  ∀ i : Instr, i.wellFormed = true →
    decode (encode i) = .command i ∧
    decodeTableWord 72 (encode i).toNat = some i ∧
    ∀ w : CommandWord, decode w = .command i →
      opField w = i.opcode ∧ commandWord i.opcode (argField w) = w ∧ ((∃ seed, i = .init seed) → w = encode i)

/-- R66: the whole 66-bit space is one `INIT` word for each seed, the `2^64` spellings of each step command, and the
`2^64` reserved words. -/
def Obligations.SpellingsOfEachCommand : Prop :=
  ∀ w : CommandWord,
    (∀ seed, decode w = .command (.init seed) ↔ w = commandWord 0 seed) ∧
    (decode w = .command .nextU64 ↔ ∃ arg, w = commandWord 1 arg) ∧
    (decode w = .command .nextDouble ↔ ∃ arg, w = commandWord 2 arg) ∧
    (∀ arg, decode w = .reserved arg ↔ w = commandWord 3 arg) ∧
    ∀ op a b, commandWord op a = commandWord op b → a = b

/-- Words of 95_test_vectors section 7, as the opcode table numbers their bits. -/
def Obligations.WrittenWordsDecode : Prop :=
  decodeTableWord 72 0x00123456789ABCDEF = some (.init 0x0123456789ABCDEF) ∧
  decodeTableWord 72 0x0FFFFFFFFFFFFFFFF = some (.init 0xFFFFFFFFFFFFFFFF) ∧
  decodeTableWord 72 0x10000000000000000 = some .nextU64 ∧
  decodeTableWord 72 0x1FFFFFFFFFFFFFFFF = some .nextU64 ∧
  decodeTableWord 72 0x20000000000000000 = some .nextDouble ∧
  decodeTableWord 72 0x28000000000000000 = some .nextDouble ∧
  decodeTableWord 72 0x30000000000000000 = none ∧
  decodeTableWord 72 0x3FFFFFFFFFFFFFFFF = none

/-- R68: the canonical lines of text, one with a comment and one with a decimal seed, give the canonical words. R68 has
mnemonics in upper case, seeds of 64 bits and comments to the end of the line; three clauses rest on the model's own
choices about other text (log entry 7, DESIGN CHOICE): a line that is only a comment gives no word, a seed of `2^64` is
the error `seedTooLarge`, and a lower-case mnemonic is the error `unknownMnemonic`. -/
def Obligations.CanonicalLinesAssemble : Prop :=
  assemble ["INIT 0x0123456789ABCDEF".toList, "NEXT_U64 ; one integer".toList, "; a comment".toList,
    "NEXT_DOUBLE".toList, "INIT 42".toList] =
      .ok [0x00123456789ABCDEF, 0x10000000000000000, 0x20000000000000000, 0x0000000000000002A] ∧
  assembleLine "INIT 18446744073709551616".toList = .error .seedTooLarge ∧
  assembleLine "next_u64".toList = .error .unknownMnemonic

/-! ## The step, the ports and reset (20_memory, 70_reset_and_hazards) -/

/-- R46, R47: when the word at the head of the inputs decodes to a well-formed command, the step consumes it and is
that command's execution. -/
def Obligations.StepRunsTheDecodedCommand : Prop :=
  ∀ (s : State) (w : CommandWord) (rest : List HostInput) (i : Instr),
    s.inputs = .command w :: rest → decode w = .command i → i.wellFormed = true →
      step s = exec i { s with inputs := rest }

/-- R47: what is executed next is the next command the host presents, whatever stands behind it, and with none
presented nothing in the core changes. -/
def Obligations.NothingHappensBetweenCommands : Prop :=
  (∀ s : State, s.inputs = [] → step s = .next s) ∧
  ∀ (s : State) (w : CommandWord) (rest : List HostInput) (i : Instr),
    s.inputs = .command w :: rest → decode w = .command i → step s = exec i { s with inputs := rest }

/-- R65: the model refuses `op = 3`, for any `arg` and in any state. -/
def Obligations.ReservedCodeIsRefused : Prop :=
  ∀ (s : State) (w : CommandWord) (rest : List HostInput),
    s.inputs = .command w :: rest → opField w = 3 → step s = .refused .reservedCommand

/-- R190, R191: reset at any time leaves the ghosts `seeded` and step count as after reset, no response and no command in
flight, whatever the state was and whatever command reset met. Two clauses rest on the model: that the inputs behind the
reset are still to come (log entry 6, DEDUCED), and that nothing of the old lanes, ghosts or responses survives in the
lanes, which are the free values drawn for that number of the reset (log entry 2, DESIGN CHOICE; R33 leaves the lanes
unspecified). -/
def Obligations.ResetDiscardsEverything : Prop :=
  ∀ (s : State) (presented : Option CommandWord) (rest : List HostInput),
    s.inputs = .reset presented :: rest →
      ∃ t, step s = .next t ∧
        t.seeded = false ∧ t.steps = 0 ∧ t.responses = [] ∧ t.inputs = rest ∧
        (∀ (s' : State) (presented' : Option CommandWord),
          s'.inputs = .reset presented' :: rest → ∃ t', step s' = .next t' ∧ SameButLanes t t') ∧
        ∀ (S : Lanes) (b : Bool) (n : Nat) (r : List Word) (presented' : Option CommandWord),
          step { s with lanes := S, seeded := b, steps := n, responses := r, inputs := .reset presented' :: rest } =
            .next t

/-- R33, but for the lanes: what reset leaves. The lanes are unspecified, so nothing is stated of them. That no run is
refused yet is log entry 3. -/
def Obligations.StateAfterReset : Prop :=
  State.reset.seeded = false ∧ State.reset.steps = 0 ∧ State.reset.inputs = [] ∧ State.reset.responses = [] ∧
  State.reset.refusedByModel = false

/-- R48, in the form of log entry 5: the host takes responses in the order they were sent, and taking one changes
nothing else. -/
def Obligations.ResponsesAreTakenInOrder : Prop :=
  ∀ (s : State) (rest : List HostInput),
    s.inputs = .takeResponse :: rest →
      (∀ r later, s.responses = r :: later → step s = .next { s with inputs := rest, responses := later }) ∧
      (s.responses = [] → step s = .next { s with inputs := rest })

/-- R64, R48: `NEXT_U64` and `NEXT_DOUBLE` each cause exactly one response word, after those sent before, and `INIT`
none. -/
def Obligations.WhichCommandsRespond : Prop :=
  (∀ (seed : Word) (s t : State), exec (.init seed) s = .next t → t.responses = s.responses) ∧
  (∀ s t : State, exec .nextU64 s = .next t → ∃ r, t.responses = s.responses ++ [r]) ∧
  (∀ s t : State, exec .nextDouble s = .next t → ∃ r, t.responses = s.responses ++ [r])

/-- R22, R44: the frame of the commands. None touches the inputs still to come; `INIT` leaves the responses; a step
command leaves the responses already sent and `seeded`, and counts one step. The ghost of the model's refusal changes
only by a step command that executes while `seeded` is false (R107; log entry 3). -/
def Obligations.FrameOfTheCommands : Prop :=
  (∀ (seed : Word) (s t : State), exec (.init seed) s = .next t →
    t.inputs = s.inputs ∧ t.responses = s.responses ∧ t.seeded = true ∧ t.steps = 0 ∧
      t.resets = s.resets ∧ t.refusedByModel = s.refusedByModel) ∧
  (∀ s t : State, exec .nextU64 s = .next t →
    t.inputs = s.inputs ∧ s.responses <+: t.responses ∧ t.seeded = s.seeded ∧ t.steps = s.steps + 1 ∧
      t.resets = s.resets ∧ t.refusedByModel = (s.refusedByModel || !s.seeded)) ∧
  (∀ s t : State, exec .nextDouble s = .next t →
    t.inputs = s.inputs ∧ s.responses <+: t.responses ∧ t.seeded = s.seeded ∧ t.steps = s.steps + 1 ∧
      t.resets = s.resets ∧ t.refusedByModel = (s.refusedByModel || !s.seeded))

/-- R20, R21, R14: the four lanes are four distinct elements, each of which holds any value written to it. -/
def Obligations.LanesAreDistinctRegisters : Prop :=
  ∀ (S : Lanes) (i j : Fin 4) (v : Word), (S.write i v).read j = if i = j then v else S.read j

/-! ## The Seeder (40_seeder) -/

/-- R80 to R83: the four stages, with the corner cases and worked examples of their rules. -/
def Obligations.MixingStages : Prop :=
  (∀ acc : Word, stageA acc = acc + 0x9E3779B97F4A7C15) ∧
  (∀ acc : Word, stageA acc = 0 ↔ acc = 0x61C8864680B583EB) ∧
  stageA 0xFFFFFFFFFFFFFFFF = 0x9E3779B97F4A7C14 ∧ stageA 0 = 0x9E3779B97F4A7C15 ∧
  stageA 1 = 0x9E3779B97F4A7C16 ∧
  (∀ z : Word, stageB z = (z ^^^ (z >>> 30)) * 0xBF58476D1CE4E5B9) ∧
  stageB 0 = 0 ∧ stageB 1 = 0xBF58476D1CE4E5B9 ∧ stageB 0xFFFFFFFFFFFFFFFF = 0x8C6C691C00000000 ∧
  stageB 0x8000000000000000 = 0xB9C9CB7200000000 ∧ stageB 0x9E3779B97F4A7C15 = 0x6F68261B57E7A770 ∧
  (∀ z : Word, stageC z = (z ^^^ (z >>> 27)) * 0x94D049BB133111EB) ∧
  stageC 0 = 0 ∧ stageC 1 = 0x94D049BB133111EB ∧ stageC 0xFFFFFFFFFFFFFFFF = 0x99DDC2A000000000 ∧
  stageC 0x8000000000000000 = 0xB3111EB000000000 ∧ stageC 0x6F68261B57E7A770 = 0xE220A838BF5C9DDE ∧
  (∀ z : Word, stageD z = z ^^^ (z >>> 31)) ∧
  stageD 0 = 0 ∧ (∀ v : Word, v.toNat < 2 ^ 31 → stageD v = v) ∧
  stageD 0xFFFFFFFFFFFFFFFF = 0xFFFFFFFE00000000 ∧ stageD 0x8000000000000000 = 0x8000000100000000 ∧
  stageD 0xE220A838BF5C9DDE = 0xE220A8397B1DCDAF

/-- R84: one pass applies the stages in the order A, B, C, D and keeps the output of stage A as the accumulator. -/
def Obligations.OnePassOfThePipeline : Prop :=
  (∀ acc : Word, smNext acc = (stageA acc, stageD (stageC (stageB (stageA acc))))) ∧
  (∀ acc : Word, smNext acc = (acc + 0x9E3779B97F4A7C15, mix (acc + 0x9E3779B97F4A7C15))) ∧
  smNext 0 = (0x9E3779B97F4A7C15, 0xE220A8397B1DCDAF)

/-- R85, R86, R89: `INIT seed` completes in every state; lane `i` is `mix(seed + (i+1) * GAMMA)`, since the accumulator
runs on from lane to lane; the ghosts are set, and the ports are as they were. -/
def Obligations.InitFillsTheLanes : Prop :=
  (∀ (seed : Word) (s : State),
    exec (.init seed) s = .next
      { s with
        lanes := ⟨mix (seed + 0x9E3779B97F4A7C15), mix (seed + 0x3C6EF372FE94F82A),
          mix (seed + 0xDAA66D2C7DDF743F), mix (seed + 0x78DDE6E5FD29F054)⟩
        seeded := true, steps := 0 }) ∧
  (∀ seed a1 a2 a3 a4 l0 l1 l2 l3 : Word, smNext seed = (a1, l0) → smNext a1 = (a2, l1) → smNext a2 = (a3, l2) →
    smNext a3 = (a4, l3) →
      a1 = seed + 1 * 0x9E3779B97F4A7C15 ∧ a2 = seed + 2 * 0x9E3779B97F4A7C15 ∧
      a3 = seed + 3 * 0x9E3779B97F4A7C15 ∧ a4 = seed + 4 * 0x9E3779B97F4A7C15 ∧
      ∀ s t : State, exec (.init seed) s = .next t → t.lanes = ⟨l0, l1, l2, l3⟩) ∧
  ∀ s t : State, exec (.init 0) s = .next t →
    t.lanes = ⟨0xE220A8397B1DCDAF, 0x6E789E6AA1B965F4, 0x06C45D188009454F, 0xF88BB8A8724C81EC⟩

/-- R87, R147: `INIT` never fails, and the zero seed gives four non-zero, pairwise different lanes, the start of the
ordinary stream of seed 0. -/
def Obligations.ZeroSeedIsOrdinary : Prop :=
  (∀ (seed : Word) (s : State), ∃ t, exec (.init seed) s = .next t) ∧
  ∀ s : State, ∃ t, exec (.init 0) s = .next t ∧ t.lanes = streamLanes 0 0 ∧
    (∀ i, t.lanes.read i ≠ 0) ∧ ∀ i j, i ≠ j → t.lanes.read i ≠ t.lanes.read j

/-- R24, R45, R85: `INIT` reads nothing but its seed: whatever the lanes and the ghosts were, the result is the same,
and a second `INIT` with the same seed changes nothing. -/
def Obligations.InitIgnoresTheOldState : Prop :=
  (∀ (seed : Word) (s s' : State), s.inputs = s'.inputs → s.responses = s'.responses →
    s.resets = s'.resets → s.refusedByModel = s'.refusedByModel →
    exec (.init seed) s = exec (.init seed) s') ∧
  ∀ (seed : Word) (s t : State), exec (.init seed) s = .next t → exec (.init seed) t = .next t

/-- R90: `mix` and each of its parts is a bijection fixing zero, and so is a lane as a function of the accumulator a
bijection. -/
def Obligations.MixIsABijection : Prop :=
  (∀ k, 1 ≤ k → k ≤ 63 →
    Function.Bijective (fun z : Word => z ^^^ (z >>> k)) ∧ ∀ z : Word, z ^^^ (z >>> k) = 0 ↔ z = 0) ∧
  (∀ m : Word, m.toNat % 2 = 1 → Function.Bijective (fun z : Word => z * m) ∧ ∀ z : Word, z * m = 0 ↔ z = 0) ∧
  Function.Bijective stageA ∧ Function.Bijective stageB ∧ Function.Bijective stageC ∧ Function.Bijective stageD ∧
  Function.Bijective mix ∧ (∀ z : Word, mix z = 0 ↔ z = 0) ∧
  Function.Bijective (fun acc : Word => (smNext acc).2)

/-- R91: after `INIT`, for every seed, the lanes are pairwise different, at most one is zero, not all are, and lane `i`
is zero exactly for the one seed the rule names. -/
def Obligations.FreshLanesAreDifferent : Prop :=
  ∀ (seed : Word) (s t : State), exec (.init seed) s = .next t →
    (∀ i j, i ≠ j → t.lanes.read i ≠ t.lanes.read j) ∧
    (∀ i j, t.lanes.read i = 0 → t.lanes.read j = 0 → i = j) ∧
    t.lanes ≠ Lanes.zero ∧
    (t.lanes.s0 = 0 ↔ seed = 0x61C8864680B583EB) ∧ (t.lanes.s1 = 0 ↔ seed = 0xC3910C8D016B07D6) ∧
    (t.lanes.s2 = 0 ↔ seed = 0x255992D382208BC1) ∧ (t.lanes.s3 = 0 ↔ seed = 0x8722191A02D60FAC)

/-- R142, the part of it that is a law: different seeds give different states, already in lane 0. -/
def Obligations.SeedsGiveDifferentStates : Prop :=
  ∀ a b : Word, (streamLanes a 0).s0 = (streamLanes b 0).s0 → a = b

/-! ## The Generator (41_generator) -/

/-- R100: the rotation moves bit `i` to bit `(i + k) mod 64`, the two shifted parts never overlap, it is undone by the
rotation by `64 - k`, and the rule's corner cases. -/
def Obligations.RotateLeftMovesBits : Prop :=
  (∀ k, 1 ≤ k → k ≤ 63 →
    (∀ (x : Word) (i : Nat), i < 64 → (rotl x k).getLsbD ((i + k) % 64) = x.getLsbD i) ∧
    (∀ x : Word, (x <<< k) &&& (x >>> (64 - k)) = 0 ∧
      rotl x k = (x <<< k) ^^^ (x >>> (64 - k)) ∧ rotl x k = (x <<< k) + (x >>> (64 - k))) ∧
    (∀ x : Word, rotl (rotl x k) (64 - k) = x) ∧ Function.Bijective (fun x : Word => rotl x k) ∧
    rotl 0 k = 0 ∧ rotl 0xFFFFFFFFFFFFFFFF k = 0xFFFFFFFFFFFFFFFF) ∧
  (∀ x : Word, rotl x 45 = (x <<< 45) ||| (x >>> 19)) ∧
  rotl 1 45 = 0x0000200000000000 ∧ rotl 0x8000000000000000 45 = 0x0000100000000000 ∧
  rotl 0x0000000000040000 45 = 0x8000000000000000 ∧ rotl 0x0000000000080000 45 = 1 ∧
  rotl 0x0123456789ABCDEF 45 = 0x79BDE02468ACF135

/-- R101: on seeded lanes (StepBeforeInitRunsOnTheLanes is about the others) `NEXT_U64` completes, with the eight steps
in order, each reading the lanes as the steps before it left them; its response is the result of step 1, and nothing
else changes but the step count. -/
def Obligations.NextU64RunsTheEightSteps : Prop :=
  (∀ (s : State) (result t s2' s3' s1' s0' s2'' s3'' : Word), s.seeded = true →
    result = s.lanes.s0 + s.lanes.s3 →
    t = s.lanes.s1 <<< 17 →
    s2' = s.lanes.s2 ^^^ s.lanes.s0 →
    s3' = s.lanes.s3 ^^^ s.lanes.s1 →
    s1' = s.lanes.s1 ^^^ s2' →
    s0' = s.lanes.s0 ^^^ s3' →
    s2'' = s2' ^^^ t →
    s3'' = rotl s3' 45 →
      exec .nextU64 s = .next
        { s with
          lanes := ⟨s0', s1', s2'', s3''⟩, steps := s.steps + 1, responses := s.responses ++ [result] }) ∧
  generatorOutput ⟨1, 2, 3, 4⟩ = 5 ∧ generatorNext ⟨1, 2, 3, 4⟩ = ⟨7, 0, 0x40002, 0x0000C00000000000⟩ ∧
  generatorOutput ⟨0xFFFFFFFFFFFFFFFF, 0, 0, 1⟩ = 0

/-- R103, R105: the closed form of the transition, for every value of the four lanes; the new state is a linear
function of the old over the two-element field, and the output is not. -/
def Obligations.TransitionClosedForm : Prop :=
  (∀ (s : State) (a b c d : Word), s.seeded = true → s.lanes = ⟨a, b, c, d⟩ →
    exec .nextU64 s = .next
      { s with
        lanes := ⟨a ^^^ b ^^^ d, a ^^^ b ^^^ c, a ^^^ c ^^^ (b <<< 17), rotl (b ^^^ d) 45⟩
        steps := s.steps + 1, responses := s.responses ++ [a + d] }) ∧
  (∀ S T : Lanes, generatorNext (S.xor T) = (generatorNext S).xor (generatorNext T)) ∧
  ∃ S T : Lanes, generatorOutput (S.xor T) ≠ generatorOutput S ^^^ generatorOutput T

/-- R102: the output comes from lanes 0 and 3 of the old state, so the first output after `INIT seed` is
`mix(seed +w GAMMA) +w mix(seed +w 4*GAMMA)`. -/
def Obligations.OutputComesFromTheOldState : Prop :=
  (∀ s t : State, exec .nextU64 s = .next t → t.responses = s.responses ++ [s.lanes.s0 + s.lanes.s3]) ∧
  (∀ S T : Lanes, S.s0 = T.s0 → S.s3 = T.s3 → generatorOutput S = generatorOutput T) ∧
  ∀ (seed : Word) (s : State), ∃ t u, exec (.init seed) s = .next t ∧ exec .nextU64 t = .next u ∧
    u.responses = s.responses ++
      [mix (seed + 0x9E3779B97F4A7C15) + mix (seed + 4 * 0x9E3779B97F4A7C15)]

/-- R104: `t` is lane 1 shifted left by 17: bits 46:0 move to bits 63:17, bits 16:0 are zero, bits 63:47 are lost;
the right shift inside the rotation is by 19 and is logical. -/
def Obligations.ShiftOfLaneOneIsLogical : Prop :=
  (∀ (S : Lanes) (i : Nat), i < 17 → (generatorShift S).getLsbD i = false) ∧
  (∀ (S : Lanes) (i : Nat), 17 ≤ i → i < 64 → (generatorShift S).getLsbD i = S.s1.getLsbD (i - 17)) ∧
  (∀ S : Lanes, generatorShift ⟨S.s0, 0x0000800000000000, S.s2, S.s3⟩ = 0) ∧
  (∀ S : Lanes, generatorShift ⟨S.s0, 0x0000400000000000, S.s2, S.s3⟩ = 0x8000000000000000) ∧
  ∀ x : Word, rotl x Config.bRot = (x <<< 45) ||| (x >>> 19)

/-- R106: a step reads nothing but the lanes: states with the same lanes step to states with the same lanes and send
the same response, whatever the step count, the inputs and the responses before. -/
def Obligations.StepReadsOnlyTheLanes : Prop :=
  ∀ s s' t t' : State, s.lanes = s'.lanes → exec .nextU64 s = .next t → exec .nextU64 s' = .next t' →
    t.lanes = t'.lanes ∧ ∃ r, t.responses = s.responses ++ [r] ∧ t'.responses = s'.responses ++ [r]

/-- R107, its two halves. The hardware: a step on unseeded lanes "computes rule R101 on whatever bits the registers hold
and responds", leaves the core unseeded, and is not detected; so do the step commands at reset, on lanes of which nothing
is known. The model: it refuses the run. That the core runs this step, and the refusal is the ghost `refusedByModel` and
the outcome of `modelStep`, is the model's own choice (log entry 3, DESIGN CHOICE). -/
def Obligations.StepBeforeInitRunsOnTheLanes : Prop :=
  (∀ (s : State) (a b c d : Word), s.seeded = false → s.lanes = ⟨a, b, c, d⟩ →
    (∃ t, exec .nextU64 s = .next t ∧ t.responses = s.responses ++ [a + d] ∧ t.seeded = false ∧
      t.steps = s.steps + 1 ∧ t.inputs = s.inputs ∧ t.refusedByModel = true ∧
      t.lanes = ⟨a ^^^ b ^^^ d, a ^^^ b ^^^ c, a ^^^ c ^^^ (b <<< 17), rotl (b ^^^ d) 45⟩) ∧
    ∃ t, exec .nextDouble s = .next t ∧ t.responses = s.responses ++ [toDoubleBits (a + d)] ∧ t.seeded = false ∧
      t.steps = s.steps + 1 ∧ t.inputs = s.inputs ∧ t.refusedByModel = true ∧
      t.lanes = ⟨a ^^^ b ^^^ d, a ^^^ b ^^^ c, a ^^^ c ^^^ (b <<< 17), rotl (b ^^^ d) 45⟩) ∧
  ∀ (arg : Word) (rest : List HostInput),
    (modelStep { State.reset with inputs := .command (commandWord 1 arg) :: rest } = .refused .unseededStep ∧
      ∃ t, step { State.reset with inputs := .command (commandWord 1 arg) :: rest } = .next t ∧
        t.responses = [State.reset.lanes.s0 + State.reset.lanes.s3]) ∧
    modelStep { State.reset with inputs := .command (commandWord 2 arg) :: rest } = .refused .unseededStep ∧
      ∃ t, step { State.reset with inputs := .command (commandWord 2 arg) :: rest } = .next t ∧
        t.responses = [toDoubleBits (State.reset.lanes.s0 + State.reset.lanes.s3)]

/-- R108: the all-zero state returns 0 and stays, and it is the only fixed point. -/
def Obligations.AllZeroIsTheOnlyFixedPoint : Prop :=
  (∀ s : State, s.seeded = true → s.lanes = Lanes.zero →
    exec .nextU64 s = .next { s with steps := s.steps + 1, responses := s.responses ++ [0] }) ∧
  (∀ S : Lanes, generatorNext S = S ↔ S = Lanes.zero) ∧
  ∀ s t : State, exec .nextU64 s = .next t → s.lanes ≠ Lanes.zero → ∃ i, t.lanes.read i ≠ s.lanes.read i

/-- R109: the transition is a bijection with the inverse the rule gives; no non-zero state steps to all-zero, and the
state is non-zero at every point of every stream. -/
def Obligations.TransitionIsABijection : Prop :=
  (∀ S : Lanes, generatorPrevious (generatorNext S) = S) ∧
  (∀ S : Lanes, generatorNext (generatorPrevious S) = S) ∧
  Function.Bijective generatorNext ∧
  (∀ S : Lanes, S ≠ Lanes.zero → generatorNext S ≠ Lanes.zero) ∧
  ∀ (seed : Word) (k : Nat), streamLanes seed k ≠ Lanes.zero

/-- R110: from `(5, 0, 7, 0)` two successive steps both return 5. -/
def Obligations.ConsecutiveOutputsMayBeEqual : Prop :=
  ∀ s : State, s.seeded = true → s.lanes = ⟨5, 0, 7, 0⟩ →
    ∃ t u, exec .nextU64 s = .next t ∧ t.lanes = ⟨5, 2, 2, 0⟩ ∧ exec .nextU64 t = .next u ∧
      u.lanes = ⟨7, 5, 0x40007, 0x0000400000000000⟩ ∧ u.responses = s.responses ++ [5, 5]

/-! ## The Output Mapper (42_output_mapper) -/

/-- R120, R122: the pattern is the one the rule's procedure gives, with the highest set bit of `m = x >> 11` as its
bounds define it, and it denotes exactly `m / 2^53`. -/
def Obligations.ToDoubleIsExact : Prop :=
  (∀ x : Word, doubleValue (toDoubleBits x) = some (((x.toNat / 2 ^ 11 : Nat) : ℚ) / 2 ^ 53)) ∧
  (∀ x : Word, toDouble x = ((x.toNat / 2048 : Nat) : ℚ) / 9007199254740992) ∧
  (∀ x : Word, x >>> 11 = 0 → toDoubleBits x = 0) ∧
  (∀ (x : Word) (m p : Nat), m = (x >>> 11).toNat → 2 ^ p ≤ m → m < 2 ^ (p + 1) →
    p ≤ 52 ∧ (toDoubleBits x).toNat = (970 + p) * 2 ^ 52 + (m * 2 ^ (52 - p)) % 2 ^ 52 ∧
    doubleSign (toDoubleBits x) = false ∧ doubleExponent (toDoubleBits x) = 970 + p ∧
    doubleFraction (toDoubleBits x) = m * 2 ^ (52 - p) - 2 ^ 52) ∧
  toDoubleBits 0x8000000000000000 = 0x3FE0000000000000

/-- R121: the pattern depends only on bits 63:11, which are truncated and not rounded. -/
def Obligations.MapperDropsTheLowBits : Prop :=
  (∀ x y : Word, x >>> 11 = y >>> 11 → toDoubleBits x = toDoubleBits y) ∧
  (∀ x : Word, toDoubleBits x = toDoubleBits ((x >>> 11) <<< 11)) ∧
  ∀ x : Word, x.toNat ≤ 0x7FF → toDoubleBits x = 0

/-- R123: the result lies in `[0, 1)`, with the smallest, the smallest non-zero and the largest results of the rule. -/
def Obligations.MapperRange : Prop :=
  (∀ x : Word, ∃ q, doubleValue (toDoubleBits x) = some q ∧ 0 ≤ q ∧ q < 1) ∧
  (∀ x : Word, toDoubleBits x = 0 ↔ x.toNat ≤ 0x7FF) ∧
  (∀ x : Word, toDoubleBits x = 0x3CA0000000000000 ↔ 0x800 ≤ x.toNat ∧ x.toNat ≤ 0xFFF) ∧
  (∀ x : Word, toDoubleBits x = 0x3FEFFFFFFFFFFFFF ↔ 0xFFFFFFFFFFFFF800 ≤ x.toNat) ∧
  (∀ x : Word, (toDoubleBits x).toNat ≤ 0x3FEFFFFFFFFFFFFF) ∧
  ∀ x : Word, toDoubleBits x ≠ 0x3FF0000000000000

/-- R124: never negative, never `-0.0`, a NaN, an infinity or a subnormal; the results are exactly the multiples of
`2^-53` in `[0, 1)`, each hit by exactly the 2048 inputs from `2048 k`; the mapper is non-decreasing. -/
def Obligations.MapperNeverLeavesNormalNumbers : Prop :=
  (∀ x : Word, doubleSign (toDoubleBits x) = false ∧ doubleExponent (toDoubleBits x) < 2047) ∧
  (∀ x : Word, doubleExponent (toDoubleBits x) = 0 → toDoubleBits x = 0) ∧
  (∀ x : Word, toDoubleBits x ≠ 0 → 970 ≤ doubleExponent (toDoubleBits x)) ∧
  (∀ x : Word, ∃ k : Nat, k < 2 ^ 53 ∧ doubleValue (toDoubleBits x) = some ((k : ℚ) / 2 ^ 53)) ∧
  (∀ k : Nat, k < 2 ^ 53 → ∀ x : Word,
    doubleValue (toDoubleBits x) = some ((k : ℚ) / 2 ^ 53) ↔ 2048 * k ≤ x.toNat ∧ x.toNat < 2048 * (k + 1)) ∧
  (∀ x y : Word, x.toNat ≤ y.toNat →
    toDouble x ≤ toDouble y ∧ (toDoubleBits x).toNat ≤ (toDoubleBits y).toNat)

/-- R125: on seeded lanes `NEXT_DOUBLE` completes; it leaves the lanes and the step count as `NEXT_U64` does from the
same state, and responds with the pattern of the integer `NEXT_U64` would have sent. -/
def Obligations.NextDoubleComposesStepAndMapper : Prop :=
  (∀ (s : State) (a b c d : Word), s.seeded = true → s.lanes = ⟨a, b, c, d⟩ →
    exec .nextDouble s = .next
      { s with
        lanes := ⟨a ^^^ b ^^^ d, a ^^^ b ^^^ c, a ^^^ c ^^^ (b <<< 17), rotl (b ^^^ d) 45⟩
        steps := s.steps + 1, responses := s.responses ++ [toDoubleBits (a + d)] }) ∧
  (∀ s t : State, exec .nextU64 s = .next t → ∃ r, t.responses = s.responses ++ [r] ∧
    exec .nextDouble s = .next { t with responses := s.responses ++ [toDoubleBits r] }) ∧
  ∀ s t : State, exec (.init 0) s = .next t → ∃ u, exec .nextDouble t = .next u ∧
    u.responses = s.responses ++ [0x3FEB558C1C3DAD49] ∧
    u.lanes = ⟨0x74D38EFBA8E829B7, 0x8A9C6B4B5AADED14, 0xD831B65330FC88E0, 0xBC8312DE64D85A7E⟩

/-- R144: in every state, all-zero and unreachable ones included, `NEXT_DOUBLE` responds with a double in `[0, 1)`. That
it completes while `seeded` is false too is the model's own choice (log entry 3, DESIGN CHOICE; R107 and R176 have a
model refuse it). -/
def Obligations.NextDoubleIsInTheUnitInterval : Prop :=
  ∀ s : State, ∃ t d q, exec .nextDouble s = .next t ∧ t.responses = s.responses ++ [d] ∧
    doubleValue d = some q ∧ 0 ≤ q ∧ q < 1

/-! ## The stream and the whole machine (43_stream_properties, 60_exceptions) -/

/-- R143, as C5 reads it: each step command applies the transition once, and from a non-zero state the new lanes
differ from the old. -/
def Obligations.EachStepAdvancesTheStream : Prop :=
  ∀ s t : State, exec .nextU64 s = .next t ∨ exec .nextDouble s = .next t →
    t.lanes = generatorNext s.lanes ∧ (s.lanes ≠ Lanes.zero → t.lanes ≠ s.lanes)

/-- R145: the first outputs of the seeds 0, 1 and 42, as the rules give them (95_test_vectors section 3.3). -/
def Obligations.KnownFirstOutputs : Prop :=
  (∀ s : State, ∃ t u, exec (.init 1) s = .next t ∧ exec .nextU64 t = .next u ∧
    u.responses = s.responses ++ [0x02CBB47D774525CC]) ∧
  streamOut 1 1 = 0xE2CDC0C24434AB26 ∧ streamOut 1 2 = 0x288FE817477F7807 ∧
  streamOut 0 0 = 0xDAAC60E1ED6A4F9B ∧ streamOut 0 1 = 0x3156A1DA0DC08435 ∧ streamOut 0 2 = 0xF9BA3E3285D046AB ∧
  streamOut 42 0 = 0x15F414253E365229 ∧ streamOut 42 1 = 0x4F771F08F4211387 ∧ streamOut 42 2 = 0x100492BD8828891E

/-- R148, R149, R141: from any state, whatever its history, `INIT seed` and then step commands of any kinds, in any
spelling, leave the lanes `state(seed, k)` and respond with the outputs of the one stream of the seed, each in the form
its command gives it. -/
def Obligations.OneStreamWhateverTheMix : Prop :=
  ∀ (s : State) (seed : Word) (steps : List (StepKind × Word)) (later : List HostInput),
    s.inputs = .command (encode (.init seed)) ::
      (steps.map fun step => .command (commandWord step.1.instr.opcode step.2)) ++ later →
    runSteps (steps.length + 1) s = .next
      { s with
        lanes := streamLanes seed steps.length, seeded := true, steps := steps.length, inputs := later
        responses := s.responses ++ streamResponses seed 0 (steps.map Prod.fst) }

/-- R23, R91, R109: every step keeps a seeded core from being all-zero. -/
def Obligations.EveryStepKeepsSeededLanesNonzero : Prop :=
  ∀ s t : State, NonzeroWhenSeeded s → step s = .next t → NonzeroWhenSeeded t

/-- R140, R27: every step keeps the lanes of a seeded core on the stream of some seed, at the step count. -/
def Obligations.EveryStepKeepsTheLanesOnAStream : Prop :=
  ∀ s t : State, OnStream s → step s = .next t → OnStream t

/-- R33, R30: both invariants, each about a seeded core, hold after reset, when the core is unseeded. -/
def Obligations.InvariantsHoldAtReset : Prop :=
  NonzeroWhenSeeded State.reset ∧ OnStream State.reset

/-- R65, R176, R192: a host that never sends the reserved code is never refused by the core, for any number of steps; and
one that also seeds before stepping is not refused by the spec's model either, which then reports the steps of the core.
That the core does not stop on a step before seeding is the model's own choice (log entry 3, DESIGN CHOICE). -/
def Obligations.ContractPreventsEveryRefusal : Prop :=
  (∀ s : State, neverSendsReserved s.inputs = true →
    ∀ k, ∃ t, runSteps k s = .next t ∧ neverSendsReserved t.inputs = true) ∧
  ∀ s : State, s.refusedByModel = false → obeysContract s.seeded s.inputs = true →
    ∀ k, ∃ t, modelRun k s = .next t ∧ runSteps k s = .next t ∧ t.refusedByModel = false ∧
      obeysContract t.seeded t.inputs = true

/-- R160, R65: the core is refused exactly on the reserved code; in every other state its step answers a next state. That
it does so on a step command while `seeded` is false too is the model's own choice (log entry 3, DESIGN CHOICE);
ModelRefusesAStepBeforeInit has the outcome R176 gives there. -/
def Obligations.OutcomesOfAStep : Prop :=
  (∀ s : State,
    ((∃ w rest, s.inputs = .command w :: rest ∧ opField w = 3) ↔ step s = .refused .reservedCommand) ∧
    ((∀ w rest, s.inputs = .command w :: rest → opField w ≠ 3) ↔ ∃ t, step s = .next t)) ∧
  ∀ (i : Instr) (s : State), ∃ t, exec i s = .next t

/-- R33, R192, R197: two unseeded states that differ only in the lanes run alike for ever. As the spec's model reports the
runs, whatever the inputs, what the lanes held never matters: the same refusal, or the same responses, and the same lanes
from the first `INIT` on; so do the runs of the core for a host that seeds before it steps. For every host the core's runs
give the same refusals and as many responses, and have the same lanes whenever an `INIT` has executed since the last
reset; that the core does not stop on a step command before `INIT` is the model's own choice (log entry 3, DESIGN
CHOICE). -/
def Obligations.LanesBeforeInitNeverMatter : Prop :=
  ∀ s t : State, SameButLanes s t → s.refusedByModel = t.refusedByModel → s.seeded = false →
    (∀ k, AgreeWhereSeeded (modelRun k s) (modelRun k t)) ∧
    (obeysContract s.seeded s.inputs = true → ∀ k, AgreeWhereSeeded (runSteps k s) (runSteps k t)) ∧
    ∀ k, AgreeButForWords (runSteps k s) (runSteps k t)

/-- R176, R30, R33, R192: the outcomes of the spec's model. In a run not refused so far a step is refused exactly on a
step command while `seeded` is false and on the reserved code; in every other case, which has each `INIT`, each step
command while `seeded` is true and each reset, it is the step of the core. A refusal is kept for the rest of the run. The
refusal's form, a ghost and `modelStep`, is the model's (log entry 3, DESIGN CHOICE). -/
def Obligations.ModelRefusesAStepBeforeInit : Prop :=
  (∀ s : State, s.refusedByModel = false →
    (modelStep s = .refused .unseededStep ↔
      s.seeded = false ∧ ∃ w rest, s.inputs = .command w :: rest ∧ (opField w = 1 ∨ opField w = 2)) ∧
    (modelStep s = .refused (.ofCore .reservedCommand) ↔ ∃ w rest, s.inputs = .command w :: rest ∧ opField w = 3) ∧
    ((∃ t, modelStep s = .next t ∧ step s = .next t) ↔
      ∀ w rest, s.inputs = .command w :: rest → opField w = 0 ∨ (opField w ≠ 3 ∧ s.seeded = true))) ∧
  (∀ s t : State, s.refusedByModel = true → step s = .next t → t.refusedByModel = true) ∧
  ∀ s : State, s.refusedByModel = true → ∀ k, ∃ r, modelRun (k + 1) s = .refused r
end

