-- ==== Sys2Proof/Laws/State.lean ====
section
/-! SUPPORT. What each named update does to each field of the state, one lemma a field. -/

namespace Sys2Proof.Machine

variable (s : State)

@[simp] theorem State.setLanes_lanes (S : Lanes) : (s.setLanes S).lanes = S := rfl
@[simp] theorem State.setLanes_seeded (S : Lanes) : (s.setLanes S).seeded = s.seeded := rfl
@[simp] theorem State.setLanes_steps (S : Lanes) : (s.setLanes S).steps = s.steps := rfl
@[simp] theorem State.setLanes_inputs (S : Lanes) : (s.setLanes S).inputs = s.inputs := rfl
@[simp] theorem State.setLanes_responses (S : Lanes) : (s.setLanes S).responses = s.responses := rfl
@[simp] theorem State.setLanes_resets (S : Lanes) : (s.setLanes S).resets = s.resets := rfl
@[simp] theorem State.setLanes_refusedByModel (S : Lanes) : (s.setLanes S).refusedByModel = s.refusedByModel := rfl

@[simp] theorem State.markSeeded_lanes : s.markSeeded.lanes = s.lanes := rfl
@[simp] theorem State.markSeeded_seeded : s.markSeeded.seeded = true := rfl
@[simp] theorem State.markSeeded_steps : s.markSeeded.steps = 0 := rfl
@[simp] theorem State.markSeeded_inputs : s.markSeeded.inputs = s.inputs := rfl
@[simp] theorem State.markSeeded_responses : s.markSeeded.responses = s.responses := rfl
@[simp] theorem State.markSeeded_resets : s.markSeeded.resets = s.resets := rfl
@[simp] theorem State.markSeeded_refusedByModel : s.markSeeded.refusedByModel = s.refusedByModel := rfl

@[simp] theorem State.countStep_lanes : s.countStep.lanes = s.lanes := rfl
@[simp] theorem State.countStep_seeded : s.countStep.seeded = s.seeded := rfl
@[simp] theorem State.countStep_steps : s.countStep.steps = s.steps + 1 := rfl
@[simp] theorem State.countStep_inputs : s.countStep.inputs = s.inputs := rfl
@[simp] theorem State.countStep_responses : s.countStep.responses = s.responses := rfl
@[simp] theorem State.countStep_resets : s.countStep.resets = s.resets := rfl
@[simp] theorem State.countStep_refusedByModel : s.countStep.refusedByModel = s.refusedByModel := rfl

@[simp] theorem State.refuseIfUnseeded_lanes : s.refuseIfUnseeded.lanes = s.lanes := rfl
@[simp] theorem State.refuseIfUnseeded_seeded : s.refuseIfUnseeded.seeded = s.seeded := rfl
@[simp] theorem State.refuseIfUnseeded_steps : s.refuseIfUnseeded.steps = s.steps := rfl
@[simp] theorem State.refuseIfUnseeded_inputs : s.refuseIfUnseeded.inputs = s.inputs := rfl
@[simp] theorem State.refuseIfUnseeded_responses : s.refuseIfUnseeded.responses = s.responses := rfl
@[simp] theorem State.refuseIfUnseeded_resets : s.refuseIfUnseeded.resets = s.resets := rfl
@[simp] theorem State.refuseIfUnseeded_refusedByModel :
    s.refuseIfUnseeded.refusedByModel = (s.refusedByModel || !s.seeded) := rfl

@[simp] theorem State.respond_lanes (v : Word) : (s.respond v).lanes = s.lanes := rfl
@[simp] theorem State.respond_seeded (v : Word) : (s.respond v).seeded = s.seeded := rfl
@[simp] theorem State.respond_steps (v : Word) : (s.respond v).steps = s.steps := rfl
@[simp] theorem State.respond_inputs (v : Word) : (s.respond v).inputs = s.inputs := rfl
@[simp] theorem State.respond_responses (v : Word) : (s.respond v).responses = s.responses ++ [v] := rfl
@[simp] theorem State.respond_resets (v : Word) : (s.respond v).resets = s.resets := rfl
@[simp] theorem State.respond_refusedByModel (v : Word) : (s.respond v).refusedByModel = s.refusedByModel := rfl

@[simp] theorem State.takeOldest_lanes : s.takeOldest.lanes = s.lanes := rfl
@[simp] theorem State.takeOldest_seeded : s.takeOldest.seeded = s.seeded := rfl
@[simp] theorem State.takeOldest_steps : s.takeOldest.steps = s.steps := rfl
@[simp] theorem State.takeOldest_inputs : s.takeOldest.inputs = s.inputs := rfl
@[simp] theorem State.takeOldest_responses : s.takeOldest.responses = s.responses.tail := rfl
@[simp] theorem State.takeOldest_resets : s.takeOldest.resets = s.resets := rfl
@[simp] theorem State.takeOldest_refusedByModel : s.takeOldest.refusedByModel = s.refusedByModel := rfl

@[simp] theorem State.consume_lanes (rest : List HostInput) : (s.consume rest).lanes = s.lanes := rfl
@[simp] theorem State.consume_seeded (rest : List HostInput) : (s.consume rest).seeded = s.seeded := rfl
@[simp] theorem State.consume_steps (rest : List HostInput) : (s.consume rest).steps = s.steps := rfl
@[simp] theorem State.consume_inputs (rest : List HostInput) : (s.consume rest).inputs = rest := rfl
@[simp] theorem State.consume_responses (rest : List HostInput) : (s.consume rest).responses = s.responses := rfl
@[simp] theorem State.consume_resets (rest : List HostInput) : (s.consume rest).resets = s.resets := rfl
@[simp] theorem State.consume_refusedByModel (rest : List HostInput) :
    (s.consume rest).refusedByModel = s.refusedByModel := rfl

@[simp] theorem State.resetEvent_lanes : s.resetEvent.lanes = resetLanes (s.resets + 1) := rfl
@[simp] theorem State.resetEvent_seeded : s.resetEvent.seeded = false := rfl
@[simp] theorem State.resetEvent_steps : s.resetEvent.steps = 0 := rfl
@[simp] theorem State.resetEvent_inputs : s.resetEvent.inputs = s.inputs := rfl
@[simp] theorem State.resetEvent_responses : s.resetEvent.responses = [] := rfl
@[simp] theorem State.resetEvent_resets : s.resetEvent.resets = s.resets + 1 := rfl
@[simp] theorem State.resetEvent_refusedByModel : s.resetEvent.refusedByModel = s.refusedByModel := rfl

@[simp] theorem State.reset_seeded : State.reset.seeded = false := rfl
@[simp] theorem State.reset_steps : State.reset.steps = 0 := rfl
@[simp] theorem State.reset_inputs : State.reset.inputs = [] := rfl
@[simp] theorem State.reset_responses : State.reset.responses = [] := rfl
@[simp] theorem State.reset_lanes : State.reset.lanes = resetLanes 0 := rfl
@[simp] theorem State.reset_resets : State.reset.resets = 0 := rfl
@[simp] theorem State.reset_refusedByModel : State.reset.refusedByModel = false := rfl

/-- Two states are equal when they agree field by field. -/
theorem State.ext_fields {s t : State} (lanes : s.lanes = t.lanes) (seeded : s.seeded = t.seeded)
    (steps : s.steps = t.steps) (inputs : s.inputs = t.inputs) (responses : s.responses = t.responses)
    (resets : s.resets = t.resets) (refused : s.refusedByModel = t.refusedByModel) : s = t := by
  cases s; cases t; simp_all

/-- Two GeneratorStates are equal when they agree lane by lane. -/
theorem Lanes.ext_lanes {S T : Lanes} (h0 : S.s0 = T.s0) (h1 : S.s1 = T.s1) (h2 : S.s2 = T.s2) (h3 : S.s3 = T.s3) :
    S = T := by
  cases S; cases T; simp_all

@[simp] theorem Lanes.read_zero (S : Lanes) : S.read 0 = S.s0 := rfl
@[simp] theorem Lanes.read_one (S : Lanes) : S.read 1 = S.s1 := rfl
@[simp] theorem Lanes.read_two (S : Lanes) : S.read 2 = S.s2 := rfl
@[simp] theorem Lanes.read_three (S : Lanes) : S.read 3 = S.s3 := rfl

end Sys2Proof.Machine
end

