-- ==== Sys2Proof/Laws/Ops.lean ====
section
/-! SUPPORT. One lemma for each shared operation that says once what it does: the fields of a command word, the intake
of a host input, the Seeder's loop, the transition, the step commands and the mapper. -/

namespace Sys2Proof

theorem commandWord_toNat (op : BitVec 2) (arg : Word) :
    (commandWord op arg).toNat = op.toNat * 2 ^ 64 + arg.toNat := by
  rw [commandWord, BitVec.toNat_append, ← Nat.shiftLeft_add_eq_or_of_lt arg.isLt, Nat.shiftLeft_eq]

theorem opField_toNat (w : CommandWord) : (opField w).toNat = w.toNat / 2 ^ 64 := by
  have h := w.isLt
  simp only [opField, BitVec.extractLsb'_toNat, Nat.shiftRight_eq_div_pow]
  omega

theorem argField_toNat (w : CommandWord) : (argField w).toNat = w.toNat % 2 ^ 64 := by
  simp [argField]

@[simp] theorem opField_commandWord (op : BitVec 2) (arg : Word) : opField (commandWord op arg) = op := by
  have h := arg.isLt
  apply BitVec.eq_of_toNat_eq
  rw [opField_toNat, commandWord_toNat]
  omega

@[simp] theorem argField_commandWord (op : BitVec 2) (arg : Word) : argField (commandWord op arg) = arg := by
  have h := arg.isLt
  apply BitVec.eq_of_toNat_eq
  rw [argField_toNat, commandWord_toNat]
  omega

/-- A command word is its two fields (R60). -/
theorem commandWord_fields (w : CommandWord) : commandWord (opField w) (argField w) = w := by
  apply BitVec.eq_of_toNat_eq
  rw [commandWord_toNat, opField_toNat, argField_toNat]
  omega

/-- The four cases of the opcode (R61, R65). -/
theorem opcode_cases (op : BitVec 2) : op = 0 ∨ op = 1 ∨ op = 2 ∨ op = 3 := by
  revert op; decide

namespace Machine

/-- Nothing presented: the state stays (R47). -/
theorem fetch_idle {s : State} (h : s.inputs = []) : fetch s = .settled (.next s) := by
  simp [fetch, h]

/-- A word that decodes is consumed and run (R46, R70). -/
theorem fetch_command {s : State} {w : CommandWord} {rest : List HostInput} {i : Instr}
    (h : s.inputs = .command w :: rest) (hd : decode w = .command i) : fetch s = .run i (s.consume rest) := by
  simp [fetch, h, hd]

/-- The reserved code is refused (R65). -/
theorem fetch_reserved {s : State} {w : CommandWord} {rest : List HostInput} {arg : Word}
    (h : s.inputs = .command w :: rest) (hd : decode w = .reserved arg) :
    fetch s = .settled (.refused .reservedCommand) := by
  simp [fetch, h, hd]

/-- The host takes a response (R48). -/
theorem fetch_takeResponse {s : State} {rest : List HostInput} (h : s.inputs = .takeResponse :: rest) :
    fetch s = .settled (.next (s.consume rest).takeOldest) := by
  simp [fetch, h]

/-- The host asserts reset (R190). -/
theorem fetch_reset {s : State} {presented : Option CommandWord} {rest : List HostInput}
    (h : s.inputs = .reset presented :: rest) : fetch s = .settled (.next (s.consume rest).resetEvent) := by
  simp [fetch, h]

/-- The loop of `INIT` unrolled: every lane is written, so the old lanes do not matter (R85). -/
theorem seedLanes_unrolled (seed : Word) (old : Lanes) :
    seedLanes seed old =
      ⟨mix (stageA seed), mix (stageA (stageA seed)), mix (stageA (stageA (stageA seed))),
        mix (stageA (stageA (stageA (stageA seed))))⟩ := rfl

/-- Step 1 reads lanes 0 and 3 (R101). -/
theorem generatorOutput_eq (S : Lanes) : generatorOutput S = S.s0 + S.s3 := rfl

/-- Step 2 reads lane 1 (R104). -/
theorem generatorShift_eq (S : Lanes) : generatorShift S = S.s1 <<< 17 := rfl

/-- The transition with its intermediate writes substituted (R103). -/
theorem generatorNext_mk (a b c d : Word) :
    generatorNext ⟨a, b, c, d⟩ =
      ⟨a ^^^ (d ^^^ b), b ^^^ (c ^^^ a), (c ^^^ a) ^^^ (b <<< 17), rotl (d ^^^ b) 45⟩ := rfl

/-- What a step command does, field by field, on any lanes (R101, R125, R107). -/
theorem advanceStream_eq (form : Word → Word) (s : State) :
    advanceStream form s = .next
      { s with
        lanes := generatorNext s.lanes, steps := s.steps + 1
        responses := s.responses ++ [form (generatorOutput s.lanes)]
        refusedByModel := s.refusedByModel || !s.seeded } := rfl

/-- On seeded lanes nothing else changes. -/
theorem advanceStream_of_seeded (form : Word → Word) {s : State} (h : s.seeded = true) :
    advanceStream form s = .next
      { s with
        lanes := generatorNext s.lanes, steps := s.steps + 1
        responses := s.responses ++ [form (generatorOutput s.lanes)] } := by
  rw [advanceStream_eq]; simp [h]

/-- The mapper keeps the top 53 bits (R120). -/
theorem mantissa_eq_div (x : Word) : mantissa x = x.toNat / 2048 := by
  simp [mantissa, Config.drop, Nat.shiftRight_eq_div_pow]

theorem mantissa_lt (x : Word) : mantissa x < 2 ^ 53 := by
  have h := x.isLt
  rw [mantissa_eq_div]
  omega

/-- The mapper's two cases, with the highest set bit of `m` in place of its search (R122). -/
theorem toDoubleBits_of_mantissa_zero {x : Word} (h : mantissa x = 0) : toDoubleBits x = 0 := by
  simp [toDoubleBits, h]

theorem toDoubleBits_toNat {x : Word} (h : mantissa x ≠ 0) :
    (toDoubleBits x).toNat =
      (970 + (mantissa x).log2) * 2 ^ 52 + (mantissa x * 2 ^ (52 - (mantissa x).log2)) % 2 ^ 52 := by
  have hp : (mantissa x).log2 < 53 := (Nat.log2_lt h).2 (mantissa_lt x)
  have hF := Nat.mod_lt (mantissa x * 2 ^ (52 - (mantissa x).log2)) (show 0 < 2 ^ 52 by decide)
  simp only [toDoubleBits, h, if_false, highestSetBit, BitVec.toNat_ofNat, Nat.shiftLeft_eq]
  apply Nat.mod_eq_of_lt
  omega

end Machine

end Sys2Proof
end

