-- ==== Sys2Proof/Laws/PerInstr.lean ====
section
/-! SUPPORT. The family `TableRow`: every command's canonical word fits its row of spec/opcode_table.json, and no other
row, and is not the reserved code. -/

namespace Sys2Proof.Laws.TableRow

/-- The `match` of the command's row of the opcode table. -/
def rowMatch : Instr → Nat
  | .init _ => 0x00000000000000000
  | .nextU64 => 0x10000000000000000
  | .nextDouble => 0x20000000000000000

/-- The word a command encodes to, its `arg` bits set to 0 (the table's mask keeps bits 65:64), is the row's `match`;
its opcode is not the reserved one. -/
def Statement (i : Instr) : Prop :=
  (commandWord (opField (encode i)) 0).toNat = rowMatch i ∧ opField (encode i) ≠ 3

theorem init (seed : Word) : Statement (.init seed) := by
  simp [Statement, encode, Instr.opcode, commandWord_toNat, rowMatch]

theorem nextU64 : Statement .nextU64 := by
  simp [Statement, encode, Instr.opcode, commandWord_toNat, rowMatch]

theorem nextDouble : Statement .nextDouble := by
  simp [Statement, encode, Instr.opcode, commandWord_toNat, rowMatch]

end Sys2Proof.Laws.TableRow
end

