-- ==== Sys2Proof/Laws/Step.lean ====
section
/-! SUPPORT. What one step can do, said once: the inversion lemma of `exec` for each command and of `step`. -/

namespace Sys2Proof.Machine

/-- The two updates of `INIT`, as one state. -/
theorem State.seeded_with (s : State) (S : Lanes) :
    (s.setLanes S).markSeeded =
      { s with lanes := S, seeded := true, steps := 0 } := rfl

/-- All `INIT` can do (R85): it always answers this state. -/
theorem exec_init (seed : Word) (s : State) :
    exec (.init seed) s = .next
      { s with lanes := seedLanes seed s.lanes, seeded := true, steps := 0 } := by
  rw [exec, execInit, State.seeded_with]

theorem exec_nextU64 (s : State) : exec .nextU64 s = advanceStream integerResponse s := rfl

theorem exec_nextDouble (s : State) : exec .nextDouble s = advanceStream toDoubleBits s := rfl

/-- All the step commands can do, in terms of the transition and the output (R101, R125). -/
theorem exec_nextU64_eq (s : State) :
    exec .nextU64 s = .next
      { s with
        lanes := generatorNext s.lanes, steps := s.steps + 1
        responses := s.responses ++ [generatorOutput s.lanes]
        refusedByModel := s.refusedByModel || !s.seeded } :=
  advanceStream_eq integerResponse s

theorem exec_nextDouble_eq (s : State) :
    exec .nextDouble s = .next
      { s with
        lanes := generatorNext s.lanes, steps := s.steps + 1
        responses := s.responses ++ [toDoubleBits (generatorOutput s.lanes)]
        refusedByModel := s.refusedByModel || !s.seeded } :=
  advanceStream_eq toDoubleBits s

/-- The same on seeded lanes, where the ghost of the refusal stays as it was. -/
theorem exec_nextU64_of_seeded {s : State} (h : s.seeded = true) :
    exec .nextU64 s = .next
      { s with
        lanes := generatorNext s.lanes, steps := s.steps + 1
        responses := s.responses ++ [generatorOutput s.lanes] } :=
  advanceStream_of_seeded integerResponse h

theorem exec_nextDouble_of_seeded {s : State} (h : s.seeded = true) :
    exec .nextDouble s = .next
      { s with
        lanes := generatorNext s.lanes, steps := s.steps + 1
        responses := s.responses ++ [toDoubleBits (generatorOutput s.lanes)] } :=
  advanceStream_of_seeded toDoubleBits h

/-- The step when the fetch finds a command, and when it does not. -/
theorem step_of_run {s s' : State} {i : Instr} (h : fetch s = .run i s') : step s = exec i s' := by
  simp [step, h]

theorem step_of_settled {s : State} {o : Host.Outcome State Fault Refusal} (h : fetch s = .settled o) :
    step s = o := by
  simp [step, h]

/-- Every command completes, in every state (R105, R160). -/
theorem exec_completes (i : Instr) (s : State) : ∃ t, exec i s = .next t := by
  cases i with
  | init seed => exact ⟨_, exec_init seed s⟩
  | nextU64 => exact ⟨_, exec_nextU64_eq s⟩
  | nextDouble => exact ⟨_, exec_nextDouble_eq s⟩

/-- Everything a step that answers a next state can have done: nothing, an `INIT`, a step command, a taking of a
response, or a reset. -/
theorem step_next_cases {s t : State} (h : step s = .next t) :
    (s.inputs = [] ∧ t = s) ∨
    (∃ rest seed, t = { s with lanes := seedLanes seed s.lanes, seeded := true, steps := 0, inputs := rest }) ∨
    (∃ rest r, t = { s with
      lanes := generatorNext s.lanes, steps := s.steps + 1, inputs := rest, responses := s.responses ++ [r]
      refusedByModel := s.refusedByModel || !s.seeded }) ∨
    (∃ rest, t = { s with inputs := rest, responses := s.responses.tail }) ∨
    (∃ rest, t = { State.reset with
      lanes := resetLanes (s.resets + 1), inputs := rest, resets := s.resets + 1
      refusedByModel := s.refusedByModel }) := by
  cases hin : s.inputs with
  | nil =>
    rw [step_of_settled (fetch_idle hin)] at h
    injection h with h
    exact .inl ⟨rfl, h.symm⟩
  | cons head rest =>
    cases head with
    | takeResponse =>
      rw [step_of_settled (fetch_takeResponse hin)] at h
      injection h with h
      exact .inr (.inr (.inr (.inl ⟨rest, h.symm⟩)))
    | reset presented =>
      rw [step_of_settled (fetch_reset hin)] at h
      injection h with h
      exact .inr (.inr (.inr (.inr ⟨rest, h.symm⟩)))
    | command w =>
      cases hd : decode w with
      | reserved arg => rw [step_of_settled (fetch_reserved hin hd)] at h; cases h
      | command i =>
        rw [step_of_run (fetch_command hin hd)] at h
        cases i with
        | init seed =>
          rw [exec_init] at h
          injection h with h
          exact .inr (.inl ⟨rest, seed, by simpa [State.consume] using h.symm⟩)
        | nextU64 =>
          rw [exec_nextU64_eq] at h
          injection h with h
          exact .inr (.inr (.inl ⟨rest, _, by simpa [State.consume] using h.symm⟩))
        | nextDouble =>
          rw [exec_nextDouble_eq] at h
          injection h with h
          exact .inr (.inr (.inl ⟨rest, _, by simpa [State.consume] using h.symm⟩))

end Sys2Proof.Machine

namespace Sys2Proof.Safety

open Sys2Proof.Machine

theorem runWith_of_next {R : Type} {oneStep : State → Host.Outcome State Fault R} {s t : State} (k : Nat)
    (h : oneStep s = .next t) : runWith oneStep (k + 1) s = runWith oneStep k t := by
  rw [runWith, h]

theorem runWith_of_refused {R : Type} {oneStep : State → Host.Outcome State Fault R} {s : State} {r : R} (k : Nat)
    (h : oneStep s = .refused r) : runWith oneStep (k + 1) s = .refused r := by
  rw [runWith, h]

@[simp] theorem runWith_zero {R : Type} (oneStep : State → Host.Outcome State Fault R) (s : State) :
    runWith oneStep 0 s = .next s := rfl

/-- What the spec's model reports of a step that answers a next state (R176). -/
theorem modelStep_of_next {s t : State} (h : step s = .next t) :
    modelStep s = if t.refusedByModel then .refused .unseededStep else .next t := by
  rw [modelStep, h]

/-- What it reports of a step the core refuses (R65). -/
theorem modelStep_of_refused {s : State} {r : Refusal} (h : step s = .refused r) :
    modelStep s = .refused (.ofCore r) := by
  rw [modelStep, h]

/-- One step of any machine behind the host's interface, then the rest of the run. -/
theorem host_run_succ (M : Host.Core) (k : Nat) (s : M.State) :
    M.run (k + 1) s =
      match M.step s with
      | .next t => M.run k t
      | .fault r => .fault r
      | .refused r => .refused r := by
  cases h : M.step s <;> simp [Host.Core.run, h]

/-- The host's interface runs the core in the same steps. -/
theorem core_run (k : Nat) (s : State) : Host.Core.run core k s = runSteps k s := by
  induction k generalizing s with
  | zero => rfl
  | succ k ih =>
    refine (host_run_succ core k s).trans ?_
    rw [runSteps, runWith]
    have hstep : core.step s = step s := rfl
    rw [hstep]
    cases step s with
    | next t => exact ih t
    | fault r => rfl
    | refused r => rfl

end Sys2Proof.Safety
end

