-- ==== Sys2Proof/Tests/Slice0.lean ====
section
/-! SUPPORT. Tests from the vectors of 95_test_vectors, words written out from 30_encoding, the well-formedness smoke
test, and a witness for the hypotheses of each statement. -/

namespace Sys2Proof.Tests

open Sys2Proof.Machine Sys2Proof.Safety

/-- A seeded core with the given lanes, nothing presented and no response pending. -/
def seededWith (S : Lanes) : State := ⟨S, true, 0, [], [], 0, false⟩

/-- A core before its first `INIT`, with zeros in the lanes and the given inputs to come. -/
def unseededWith (inputs : List HostInput) : State := ⟨Lanes.zero, false, 0, inputs, [], 0, false⟩

/-- The next state of an outcome, if it has one. -/
def after (o : Host.Outcome State Fault Refusal) : Option State :=
  match o with
  | .next s => some s
  | .fault _ => none
  | .refused _ => none

/-! ### Well-formedness and decoding -/

/-- An ill-formed term for the one check there is: a seed literal of 65 bits (R68). -/
theorem test_seed_literal_too_large : SourceCommand.wellFormed (.init 0x10000000000000000) = false := by decide

/-- The largest seed is legal (R62). -/
theorem test_seed_literal_largest :
    SourceCommand.wellFormed (.init 0xFFFFFFFFFFFFFFFF) = true ∧ (Instr.init 0xFFFFFFFFFFFFFFFF).wellFormed = true := by
  decide

/-- `INIT 1`: op = 00, arg = 63 zeros and a one (R60). -/
theorem test_decode_init :
    decode 0b000000000000000000000000000000000000000000000000000000000000000001 = .command (.init 1) := by decide

/-- `NEXT_U64`: op = 01, arg = 64 zeros (R60, R61). -/
theorem test_decode_nextU64 :
    decode 0b010000000000000000000000000000000000000000000000000000000000000000 = .command .nextU64 := by decide

/-- `NEXT_DOUBLE`: op = 10, arg = a one and 63 zeros, ignored (R61, R62). -/
theorem test_decode_nextDouble :
    decode 0b101000000000000000000000000000000000000000000000000000000000000000 = .command .nextDouble := by decide

/-- op = 11 is refused (R65). -/
theorem test_decode_reserved :
    decode 0b110000000000000000000000000000000000000000000000000000000000000000 = .reserved 0 := by decide

/-- A number of 67 bits is no command word (log entry 8). -/
theorem test_no_word_above_66_bits : decodeTableWord 72 0x40000000000000000 = none := by decide

/-- Program P5's words, non-canonical spellings. -/
theorem test_decode_ignored_arg :
    decodeTableWord 72 0x1DEADBEEFDEADBEEF = some .nextU64 ∧ decodeTableWord 72 0x2FFFFFFFFFFFFFFFF = some .nextDouble := by
  decide

/-! ### Vectors -/

/-- 95_test_vectors 2.1: `0x0123456789ABCDEF` through each stage on its own, and through `mix`. -/
theorem test_stages :
    stageA 0x0123456789ABCDEF = 0x9F5ABF2108F64A04 ∧ stageB 0x0123456789ABCDEF = 0x18A63E7AE1537EA9 ∧
    stageC 0x0123456789ABCDEF = 0x4283DA3B4C8B248A ∧ stageD 0x0123456789ABCDEF = 0x012345678BED4720 ∧
    mix 0x0123456789ABCDEF = 0xB2C058E4EBB5112C := by decide

/-- 95_test_vectors 2.2: the accumulator wraps in the first pass. -/
theorem test_init_wraps :
    (after (exec (.init 0xFFFFFFFFFFFFFFFF) (unseededWith []))).map State.lanes =
      some ⟨0xE4D971771B652C20, 0xE99FF867DBF682C9, 0x382FF84CB27281E9, 0x6D1DB36CCBA982D2⟩ := by decide

/-- 95_test_vectors 2.3: a seed whose last lane is zero, over an earlier stream. -/
theorem test_init_zero_lane :
    after (exec (.init 0x8722191A02D60FAC) ⟨⟨1, 2, 3, 4⟩, true, 9, [], [7], 5, false⟩) =
      some ⟨⟨0x6061EFF69A95C91C, 0x61BC8EA8124999D4, 0x336503C6B835BEC0, 0⟩, true, 0, [], [7], 5, false⟩ := by decide

/-- 95_test_vectors 3.1. -/
theorem test_rotl :
    rotl 0x0123456789ABCDEF 45 = 0x79BDE02468ACF135 ∧ rotl 0x0123456789ABCDEF 1 = 0x02468ACF13579BDE ∧
    rotl 0x0123456789ABCDEF 63 = 0x8091A2B3C4D5E6F7 := by decide

/-- 95_test_vectors 3.2: the step traced from the state of `INIT 0`. -/
theorem test_nextU64_traced :
    after (exec .nextU64
      (seededWith ⟨0xE220A8397B1DCDAF, 0x6E789E6AA1B965F4, 0x06C45D188009454F, 0xF88BB8A8724C81EC⟩)) =
      some ⟨⟨0x74D38EFBA8E829B7, 0x8A9C6B4B5AADED14, 0xD831B65330FC88E0, 0xBC8312DE64D85A7E⟩, true, 1, [],
        [0xDAAC60E1ED6A4F9B], 0, false⟩ := by decide

/-- 95_test_vectors 3.5: the last corner state. -/
theorem test_nextU64_general :
    after (exec .nextU64
      (seededWith ⟨0x0123456789ABCDEF, 0xFEDCBA9876543210, 0x0F1E2D3C4B5A6978, 0x8796A5B4C3D2E1F0⟩)) =
      some ⟨⟨0x78695A4B3C2D1E0F, 0xF0E1D2C3B4A59687, 0x7B0D84F3A6D1A497, 0xDA7C0F2943E596B0⟩, true, 1, [],
        [0x88B9EB1C4D7EAFDF], 0, false⟩ := by decide

/-- 95_test_vectors 4: the mapper, at zero, the smallest non-zero, `p = 51`, `p = 45` and the maximum. -/
theorem test_mapper :
    toDoubleBits 0x7FF = 0 ∧ toDoubleBits 0xFFF = 0x3CA0000000000000 ∧
    toDoubleBits 0x7FFFFFFFFFFFFFFF = 0x3FDFFFFFFFFFFFFE ∧ toDoubleBits 0x0123456789ABCDEF = 0x3F723456789ABC80 ∧
    toDoubleBits 0xFFFFFFFFFFFFFFFF = 0x3FEFFFFFFFFFFFFF := by decide

/-- 95_test_vectors 3.3, seed 42, `k = 1`: the state after the first step, answered as a double. -/
theorem test_nextDouble_seed_42 :
    after (exec .nextDouble
      (seededWith ⟨0xCD2430EA93C77C02, 0xD26AB6428E8200C4, 0x3CE231BCDEE2F1C7, 0x8252EE1E60599785⟩)) =
      some ⟨⟨0x9D1C68B67D1CEB43, 0x23ACB714C3A78D01, 0x9D431C524CAD8DC5, 0x72E82A070B0B9DDB⟩, true, 1, [],
        [0x3FD3DDC7C23D0844], 0, false⟩ := by decide

/-- A `result` below `0x800` gives `+0.0` (R125). -/
theorem test_nextDouble_small :
    (after (exec .nextDouble (seededWith ⟨0x700, 0, 0, 0xFF⟩))).map State.responses = some [0] := by decide

/-- The first step after reset runs `INIT` presented at the port (R192). -/
theorem test_step_init_after_reset :
    (after (step (State.reset.withFetchWord 72 0x00000000000000001))).map (fun s => (s.lanes, s.seeded)) =
      some (⟨0x910A2DEC89025CC1, 0xBEEB8DA1658EEC67, 0xF893A2EEFB32555E, 0x71C18690EE42C90B⟩, true) := by decide

/-- Program P7's command: the first step after reset runs it on whatever the lanes hold and sends one word (R107). -/
theorem test_step_before_init_runs :
    (after (step (State.reset.withFetchWord 72 0x10000000000000000))).map
      (fun s => (s.seeded, s.steps, s.responses.length)) = some (false, 1, 1) := by decide

/-- Program P7: the outcome in the model is refused. -/
theorem test_model_refuses_step_before_init :
    modelStep (State.reset.withFetchWord 72 0x10000000000000000) = .refused .unseededStep := rfl

/-- A refusal is kept: reset and `INIT` after an unseeded step do not undo it (R176). -/
theorem test_model_refusal_is_kept :
    (after (runSteps 3 (unseededWith [.command 0x10000000000000000, .reset none, .command 1]))).map
      (fun s => (s.seeded, s.refusedByModel)) = some (true, true) := by decide

/-- Program P8's second word: the reserved code is refused. -/
theorem test_step_reserved_refused :
    step ((seededWith ⟨1, 2, 3, 4⟩).withFetchWord 72 0x30000000000000000) = .refused .reservedCommand := rfl

/-- Lines of programs P1 and P3 as text (R68). -/
theorem test_assemble_line :
    assembleLine "INIT 0x000000000000002A     ; seed".toList = .command (.init 42) ∧
    assembleLine "NEXT_DOUBLE   ".toList = .command .nextDouble ∧ assembleLine "INIT".toList = .error .missingSeed ∧
    assembleLine "INIT 0x".toList = .error .badSeed ∧ assembleLine "NEXT_U64 1".toList = .error .trailingText := by
  decide

/-! ### Witnesses: every statement's hypotheses can be met -/

theorem witness_DecodeInvertsEncode :
    (Instr.init 0xFFFFFFFFFFFFFFFF).wellFormed = true ∧
    decode 0x0FFFFFFFFFFFFFFFF = .command (.init 0xFFFFFFFFFFFFFFFF) ∧ decode 0x1FFFFFFFFFFFFFFFF = .command .nextU64 ∧
    decode 0x20000000000000001 = .command .nextDouble := by decide

theorem witness_SpellingsOfEachCommand :
    commandWord 0 0 = 0x00000000000000000 ∧ commandWord 1 0xFFFFFFFFFFFFFFFF = 0x1FFFFFFFFFFFFFFFF ∧
    commandWord 2 0 = 0x20000000000000000 ∧ commandWord 3 0xFFFFFFFFFFFFFFFF = 0x3FFFFFFFFFFFFFFFF := by decide

theorem witness_StepRunsTheDecodedCommand :
    (unseededWith [.command 5, .takeResponse]).inputs = .command 5 :: [.takeResponse] ∧
    decode 5 = .command (.init 5) ∧ (Instr.init 5).wellFormed = true := by decide

theorem witness_NothingHappensBetweenCommands :
    (unseededWith []).inputs = [] ∧ (unseededWith [.command 5]).inputs = .command 5 :: [] ∧
    decode 5 = .command (.init 5) := by decide

theorem witness_ReservedCodeIsRefused :
    (unseededWith [.command 0x3FFFFFFFFFFFFFFFF]).inputs = .command 0x3FFFFFFFFFFFFFFFF :: [] ∧
    opField 0x3FFFFFFFFFFFFFFFF = 3 ∧ opField 0x30000000000000000 = 3 := by decide

theorem witness_ResetDiscardsEverything :
    (unseededWith [.reset (some 7), .command 1]).inputs = .reset (some 7) :: [.command 1] ∧
    (unseededWith [.reset none, .command 1]).inputs = .reset none :: [.command 1] := by decide

theorem witness_ResponsesAreTakenInOrder :
    (⟨Lanes.zero, true, 2, [.takeResponse], [8, 9], 0, false⟩ : State).responses = 8 :: [9] ∧
    (unseededWith [.takeResponse]).inputs = .takeResponse :: [] ∧ (unseededWith [.takeResponse]).responses = [] := by
  decide

/-- For the statements whose hypotheses are that a command answers a next state. -/
theorem witness_commands_complete :
    (∃ t, exec (.init 3) (unseededWith []) = .next t) ∧
    (∃ t, exec .nextU64 (seededWith ⟨1, 2, 3, 4⟩) = .next t) ∧
    (∃ t, exec .nextDouble (seededWith ⟨1, 2, 3, 4⟩) = .next t) :=
  ⟨⟨_, exec_init _ _⟩, ⟨_, exec_nextU64_eq _⟩, ⟨_, exec_nextDouble_eq _⟩⟩

theorem witness_MixingStages : (0x7FFFFFFF : Word).toNat < 2 ^ 31 ∧ stageD 0x7FFFFFFF = 0x7FFFFFFF := by decide

/-- The four passes for seed 0 (95_test_vectors 2.2). -/
theorem witness_InitFillsTheLanes :
    smNext 0 = (0x9E3779B97F4A7C15, 0xE220A8397B1DCDAF) ∧
    smNext 0x9E3779B97F4A7C15 = (0x3C6EF372FE94F82A, 0x6E789E6AA1B965F4) ∧
    smNext 0x3C6EF372FE94F82A = (0xDAA66D2C7DDF743F, 0x06C45D188009454F) ∧
    smNext 0xDAA66D2C7DDF743F = (0x78DDE6E5FD29F054, 0xF88BB8A8724C81EC) := by decide

theorem witness_InitIgnoresTheOldState :
    (unseededWith []).inputs = (seededWith ⟨1, 2, 3, 4⟩).inputs ∧
    (unseededWith []).responses = (seededWith ⟨1, 2, 3, 4⟩).responses ∧
    (unseededWith []).resets = (seededWith ⟨1, 2, 3, 4⟩).resets ∧
    (unseededWith []).refusedByModel = (seededWith ⟨1, 2, 3, 4⟩).refusedByModel := by decide

theorem witness_MixIsABijection : 1 ≤ 1 ∧ 63 ≤ 63 ∧ Config.mul1.toNat % 2 = 1 ∧ Config.mul2.toNat % 2 = 1 := by decide

theorem witness_FreshLanesAreDifferent :
    seedLanes 0x8722191A02D60FAC Lanes.zero =
      ⟨0x6061EFF69A95C91C, 0x61BC8EA8124999D4, 0x336503C6B835BEC0, 0⟩ := by decide

theorem witness_SeedsGiveDifferentStates : (streamLanes 7 0).s0 = (streamLanes 7 0).s0 := rfl

/-- At both ends of the rotation's domain, for the top and the bottom bit. -/
theorem witness_RotateLeftMovesBits :
    (rotl 0x8000000000000000 1).getLsbD ((63 + 1) % 64) = true ∧ (rotl 1 63).getLsbD ((0 + 63) % 64) = true := by decide

theorem witness_seeded_step :
    (seededWith ⟨5, 0, 7, 0⟩).seeded = true ∧ (seededWith ⟨5, 0, 7, 0⟩).lanes = ⟨5, 0, 7, 0⟩ := by decide

/-- The step from `(1, 2, 3, 4)` with every intermediate value (R101). -/
theorem witness_NextU64RunsTheEightSteps :
    (seededWith ⟨1, 2, 3, 4⟩).seeded = true ∧ (5 : Word) = 1 + 4 ∧ (0x40000 : Word) = 2 <<< 17 ∧ (2 : Word) = 3 ^^^ 1 ∧
    (6 : Word) = 4 ^^^ 2 ∧ (0 : Word) = 2 ^^^ 2 ∧ (7 : Word) = 1 ^^^ 6 ∧ (0x40002 : Word) = 2 ^^^ 0x40000 ∧
    0x0000C00000000000 = rotl 6 45 := by decide

theorem witness_OutputComesFromTheOldState :
    (⟨1, 2, 3, 4⟩ : Lanes).s0 = (⟨1, 8, 9, 4⟩ : Lanes).s0 ∧ (⟨1, 2, 3, 4⟩ : Lanes).s3 = (⟨1, 8, 9, 4⟩ : Lanes).s3 := by
  decide

/-- Where the clauses meet: bit 16 is the last zero, bit 17 is bit 0 of the lane, bit 63 is bit 46. -/
theorem witness_ShiftOfLaneOneIsLogical :
    (generatorShift ⟨0, 0x400000000001, 0, 0⟩).getLsbD 16 = false ∧
    (generatorShift ⟨0, 0x400000000001, 0, 0⟩).getLsbD 17 = true ∧
    (generatorShift ⟨0, 0x400000000001, 0, 0⟩).getLsbD 63 = true := by decide

theorem witness_StepReadsOnlyTheLanes :
    (seededWith ⟨1, 2, 3, 4⟩).lanes = (⟨⟨1, 2, 3, 4⟩, true, 6, [.takeResponse], [9], 0, false⟩ : State).lanes ∧
    (∃ t, exec .nextU64 ⟨⟨1, 2, 3, 4⟩, true, 6, [.takeResponse], [9], 0, false⟩ = .next t) :=
  ⟨rfl, _, exec_nextU64_eq _⟩

theorem witness_StepBeforeInitRunsOnTheLanes :
    (unseededWith []).seeded = false ∧ (unseededWith []).lanes = ⟨0, 0, 0, 0⟩ ∧
    modelStep { State.reset with inputs := [.command (commandWord 2 7)] } = .refused .unseededStep :=
  ⟨rfl, rfl, rfl⟩

theorem witness_AllZeroIsTheOnlyFixedPoint :
    (seededWith Lanes.zero).seeded = true ∧ (seededWith Lanes.zero).lanes = Lanes.zero ∧
    (seededWith ⟨5, 0, 7, 0⟩).lanes ≠ Lanes.zero := by decide

theorem witness_TransitionIsABijection : (⟨0, 0, 1, 0⟩ : Lanes) ≠ Lanes.zero := by decide

/-- `m = 0` at its largest input, and `p` at both ends of its range. -/
theorem witness_ToDoubleIsExact :
    (0x7FF : Word) >>> 11 = 0 ∧ 2 ^ 0 ≤ ((0x800 : Word) >>> 11).toNat ∧ ((0x800 : Word) >>> 11).toNat < 2 ^ (0 + 1) ∧
    2 ^ 52 ≤ ((0xFFFFFFFFFFFFFFFF : Word) >>> 11).toNat ∧
    ((0xFFFFFFFFFFFFFFFF : Word) >>> 11).toNat < 2 ^ (52 + 1) := by decide

theorem witness_MapperDropsTheLowBits : (0x800 : Word) >>> 11 = 0xFFF >>> 11 ∧ (0x7FF : Word).toNat ≤ 0x7FF := by decide

/-- The boundary inputs of each clause of the range rule. -/
theorem witness_MapperRange :
    toDoubleBits 0x7FF = 0 ∧ toDoubleBits 0x800 = 0x3CA0000000000000 ∧ toDoubleBits 0xFFF = 0x3CA0000000000000 ∧
    toDoubleBits 0x1000 = 0x3CB0000000000000 ∧ toDoubleBits 0xFFFFFFFFFFFFF7FF = 0x3FEFFFFFFFFFFFFE ∧
    toDoubleBits 0xFFFFFFFFFFFFF800 = 0x3FEFFFFFFFFFFFFF := by decide

theorem witness_MapperNeverLeavesNormalNumbers :
    doubleExponent (toDoubleBits 0x7FF) = 0 ∧ toDoubleBits 0x800 ≠ 0 ∧ doubleExponent (toDoubleBits 0x800) = 970 ∧
    2 ^ 53 - 1 < 2 ^ 53 ∧ 2048 * (2 ^ 53 - 1) ≤ (0xFFFFFFFFFFFFF800 : Word).toNat ∧
    (0xFFFFFFFFFFFFF7FF : Word).toNat ≤ (0xFFFFFFFFFFFFF800 : Word).toNat := by decide

/-- Program P2's inputs, one step in a non-canonical spelling, with a taking of a response to come. -/
theorem witness_OneStreamWhateverTheMix :
    (unseededWith [.command 1, .command 0x20000000000000000, .command 0x1DEADBEEFDEADBEEF, .takeResponse]).inputs =
      .command (encode (.init 1)) ::
        ([(StepKind.double, (0 : Word)), (.integer, 0xDEADBEEFDEADBEEF)].map fun step =>
          .command (commandWord step.1.instr.opcode step.2)) ++ [.takeResponse] := by decide

theorem witness_EveryStepKeepsSeededLanesNonzero :
    NonzeroWhenSeeded (seededWith ⟨1, 2, 3, 4⟩) ∧
    (∃ t, step ((seededWith ⟨1, 2, 3, 4⟩).consume [.command 0x10000000000000000]) = .next t) ∧
    NonzeroWhenSeeded ((seededWith ⟨1, 2, 3, 4⟩).consume [.command 0x10000000000000000]) :=
  ⟨fun _ => by decide,
    ⟨_, (step_of_run (fetch_command (w := 0x10000000000000000) (i := .nextU64) rfl (by decide))).trans
      (exec_nextU64_eq _)⟩,
    fun _ => by decide⟩

theorem witness_EveryStepKeepsTheLanesOnAStream :
    OnStream ⟨streamLanes 42 1, true, 1, [.takeResponse], [3], 0, false⟩ ∧
    (∃ t, step ⟨streamLanes 42 1, true, 1, [.takeResponse], [3], 0, false⟩ = .next t) :=
  ⟨fun _ => ⟨42, rfl⟩, ⟨_, step_of_settled (fetch_takeResponse rfl)⟩⟩

/-- A host that seeds, steps, resets and seeds again keeps its contract; one that steps after reset does not. -/
theorem witness_ContractPreventsEveryRefusal :
    obeysContract false [.command 1, .command 0x10000000000000000, .reset none, .command 2, .command 0x20000000000000000]
      = true ∧
    obeysContract false [.command 1, .reset none, .command 0x10000000000000000] = false ∧
    obeysContract true [.command 0x30000000000000000] = false ∧
    neverSendsReserved [.command 0x10000000000000000, .takeResponse, .reset none, .command 0x2FFFFFFFFFFFFFFFF] = true ∧
    neverSendsReserved [.command 1, .command 0x3FFFFFFFFFFFFFFFF] = false := by decide

/-- Each outcome of a step is met: the reserved code, an unseeded step command, nothing presented. -/
theorem witness_OutcomesOfAStep :
    step (unseededWith [.command 0x30000000000000000]) = .refused .reservedCommand ∧
    after (step (unseededWith [.command 0x20000000000000000])) = some ⟨Lanes.zero, false, 1, [], [0], 0, true⟩ ∧
    step (unseededWith []) = .next (unseededWith []) := ⟨rfl, by decide, rfl⟩

theorem witness_LanesBeforeInitNeverMatter :
    SameButLanes (unseededWith [.command 1, .command 0x10000000000000000])
      ⟨⟨1, 2, 3, 4⟩, false, 0, [.command 1, .command 0x10000000000000000], [], 3, false⟩ ∧
    (unseededWith [.command 1, .command 0x10000000000000000]).seeded = false ∧
    (unseededWith [.command 1, .command 0x10000000000000000]).refusedByModel = false ∧
    obeysContract false [.command 1, .command 0x10000000000000000] = true :=
  ⟨⟨rfl, rfl, rfl, rfl⟩, rfl, rfl, by decide⟩

/-- A run not refused, with each outcome of its next step, and a refused one. -/
theorem witness_ModelRefusesAStepBeforeInit :
    (unseededWith [.command 0x20000000000000000]).refusedByModel = false ∧
    modelStep (unseededWith [.command 0x20000000000000000]) = .refused .unseededStep ∧
    modelStep (unseededWith [.command 0x30000000000000000]) = .refused (.ofCore .reservedCommand) ∧
    modelStep (unseededWith []) = .next (unseededWith []) ∧
    ({ unseededWith [] with refusedByModel := true } : State).refusedByModel = true ∧
    (∃ t, step { unseededWith [] with refusedByModel := true } = .next t) :=
  ⟨rfl, rfl, rfl, rfl, rfl, _, rfl⟩

end Sys2Proof.Tests
end

section
namespace Sys2Proof.Machine

/-- A write of lane `i`, lane by lane: the write rule of R14 in a form that leaves `i` open. -/
theorem Lanes.write_eq (S : Lanes) (i : Fin 4) (v : Word) :
    S.write i v =
      ⟨if i = 0 then v else S.s0, if i = 1 then v else S.s1, if i = 2 then v else S.s2, if i = 3 then v else S.s3⟩ := by
  match i with
  | 0 | 1 | 2 | 3 => rfl

/-- Read after write: lane `j` of the written lanes is one of the four choices of `Lanes.write_eq`. -/
theorem Lanes.read_write (S : Lanes) (i j : Fin 4) (v : Word) :
    (S.write i v).read j = if i = j then v else S.read j := by
  rw [Lanes.write_eq]
  match j with
  | 0 | 1 | 2 | 3 => rfl

/-- Settles O15, by the read-after-write law of the lanes. -/
theorem lanesAreDistinctRegisters : Obligations.LanesAreDistinctRegisters :=
  Lanes.read_write

end Sys2Proof.Machine
end

section
namespace Sys2Proof.Machine

/-! ### The Seeder never gives four zero lanes (R90, R91) -/

/-- The XOR-shift is linear over the two-element field. -/
theorem xorShiftRight_xor (z w : Word) (k : Nat) :
    xorShiftRight (z ^^^ w) k = xorShiftRight z k ^^^ xorShiftRight w k := by
  simp only [xorShiftRight, BitVec.ushiftRight_xor_distrib]
  ac_rfl

/-- A word that its own right shift leaves in place is 0, because the shift divides its value by `2^k`. -/
theorem eq_zero_of_xorShiftRight_eq_zero {z : Word} {k : Nat} (hk : 0 < k) (h : xorShiftRight z k = 0) : z = 0 := by
  have hdiv : z.toNat / 2 ^ k = z.toNat := by
    rw [← Nat.shiftRight_eq_div_pow, ← BitVec.toNat_ushiftRight, ← BitVec.xor_eq_zero_iff.1 h]
  refine BitVec.eq_of_toNat_eq (Nat.eq_zero_of_not_pos fun hpos => ?_)
  exact (Nat.div_lt_self hpos (Nat.one_lt_two_pow hk.ne')).ne hdiv

theorem xorShiftRight_injective {k : Nat} (hk : 0 < k) : Function.Injective fun z : Word => xorShiftRight z k := by
  intro z w (h : xorShiftRight z k = xorShiftRight w k)
  have hdiff : xorShiftRight (z ^^^ w) k = 0 := by rw [xorShiftRight_xor, h]; exact BitVec.xor_self
  exact BitVec.xor_eq_zero_iff.1 (eq_zero_of_xorShiftRight_eq_zero hk hdiff)

/-- An odd factor is coprime to `2^64`, so it cancels. -/
theorem mul_injective_of_odd {m : Word} (hm : m.toNat % 2 = 1) : Function.Injective fun z : Word => z * m := by
  intro z w (h : z * m = w * m)
  have hmod : z.toNat * m.toNat ≡ w.toNat * m.toNat [MOD 2 ^ 64] := by
    rw [Nat.ModEq, ← BitVec.toNat_mul, ← BitVec.toNat_mul, h]
  have hcop : Nat.gcd (2 ^ 64) m.toNat = 1 := (Nat.coprime_two_left.2 (Nat.odd_iff.2 hm)).pow_left 64
  exact BitVec.eq_of_toNat_eq ((Nat.ModEq.cancel_right_of_coprime hcop hmod).eq_of_lt_of_lt z.isLt w.isLt)

theorem stageB_injective : Function.Injective stageB :=
  (mul_injective_of_odd (by decide)).comp (xorShiftRight_injective (by decide))

theorem stageC_injective : Function.Injective stageC :=
  (mul_injective_of_odd (by decide)).comp (xorShiftRight_injective (by decide))

theorem stageD_injective : Function.Injective stageD := xorShiftRight_injective (by decide)

theorem mix_injective : Function.Injective mix := stageD_injective.comp (stageC_injective.comp stageB_injective)

theorem mix_eq_zero_iff {z : Word} : mix z = 0 ↔ z = 0 := mix_injective.eq_iff' (by decide)

/-- Stage A has no fixed point, so consecutive accumulators are not both 0. -/
theorem stageA_ne_self (acc : Word) : stageA acc ≠ acc := by
  simp [stageA, Config.gamma]

theorem seedLanes_ne_zero (seed : Word) (old : Lanes) : seedLanes seed old ≠ Lanes.zero := by
  rw [seedLanes_unrolled]
  intro h
  have h0 : stageA seed = 0 := mix_eq_zero_iff.1 (congrArg Lanes.s0 h)
  have h1 : stageA (stageA seed) = 0 := mix_eq_zero_iff.1 (congrArg Lanes.s1 h)
  exact stageA_ne_self _ (h1.trans h0.symm)

theorem seedLanes_ignores_old (seed : Word) (old old' : Lanes) : seedLanes seed old = seedLanes seed old' := by
  rw [seedLanes_unrolled, seedLanes_unrolled]

/-! ### The transition has a left inverse (R109) -/

/-- Rotations by `k` and by the remaining `64 - k` undo each other: bit `i` comes from bit `i` of one shifted part, and
the other parts have no such bit (R100). -/
theorem rotl_rotl_complement (x : Word) {k : Nat} (hk : k ≤ 64) : rotl (rotl x k) (64 - k) = x := by
  have hsub : 64 - (64 - k) = k := by omega
  ext i hi
  have hpast : x.getLsbD (64 - k + (k + i)) = false := BitVec.getLsbD_of_ge _ _ (by omega)
  rw [← BitVec.getLsbD_eq_getElem, ← BitVec.getLsbD_eq_getElem]
  simp only [rotl, BitVec.getLsbD_or, BitVec.getLsbD_shiftLeft, BitVec.getLsbD_ushiftRight, hsub, hpast]
  by_cases hlow : i < 64 - k
  · have hin : k + i < 64 := by omega
    simp [hlow, hin]
  · have hout : ¬ k + i < 64 := by omega
    have hshift : i - (64 - k) < k := by omega
    have hback : 64 - k + (i - (64 - k)) = i := by omega
    simp [hi, hlow, hout, hshift, hback]

/-- `b ^ (b << 17)` determines `b`: its shifts by multiples of 17 cancel in pairs, up to one past the word's end. -/
theorem xorShiftLeft_17_undo (b : Word) :
    (b ^^^ b <<< 17) ^^^ (b ^^^ b <<< 17) <<< 17 ^^^ (b ^^^ b <<< 17) <<< 34 ^^^ (b ^^^ b <<< 17) <<< 51 = b := by
  have hlost : b <<< 68 = 0 := BitVec.shiftLeft_eq_zero (by decide)
  simp only [BitVec.shiftLeft_xor_distrib, ← BitVec.shiftLeft_add, Nat.reduceAdd, hlost]
  simp [BitVec.xor_assoc]

theorem generatorPrevious_generatorNext (S : Lanes) : generatorPrevious (generatorNext S) = S := by
  obtain ⟨a, b, c, d⟩ := S
  have hf (e : Word) : b ^^^ (c ^^^ a) ^^^ a ^^^ (c ^^^ a ^^^ e ^^^ a) = b ^^^ e :=
    calc b ^^^ (c ^^^ a) ^^^ a ^^^ (c ^^^ a ^^^ e ^^^ a)
        = b ^^^ e ^^^ (c ^^^ c) ^^^ ((a ^^^ a) ^^^ (a ^^^ a)) := by ac_rfl
      _ = b ^^^ e := by simp
  have hc : b ^^^ (c ^^^ a) ^^^ a ^^^ b = c :=
    calc b ^^^ (c ^^^ a) ^^^ a ^^^ b = c ^^^ (a ^^^ a) ^^^ (b ^^^ b) := by ac_rfl
      _ = c := by simp
  have he : rotl (rotl (d ^^^ b) 45) 19 = d ^^^ b := rotl_rotl_complement _ (by decide)
  have ha : a ^^^ (d ^^^ b) ^^^ (d ^^^ b) = a := by simp
  have hd : d ^^^ b ^^^ b = d := by simp
  simp only [generatorNext_mk, generatorPrevious, he, ha, hf, xorShiftLeft_17_undo, hc, hd]

theorem generatorNext_ne_zero {S : Lanes} (h : S ≠ Lanes.zero) : generatorNext S ≠ Lanes.zero := by
  intro hzero
  apply h
  rw [← generatorPrevious_generatorNext S, hzero]
  decide

end Sys2Proof.Machine
end

section
namespace Sys2Proof.Safety

open Sys2Proof.Machine

/-! ### The invariant of R23, by the cases of a step -/

theorem nonzeroWhenSeeded_of_unseeded {s : State} (h : s.seeded = false) : NonzeroWhenSeeded s := by
  simp [NonzeroWhenSeeded, h]

theorem onStream_of_unseeded {s : State} (h : s.seeded = false) : OnStream s := by
  simp [OnStream, h]

/-- Settles O43, by the cases of a step: `INIT` never fills the lanes with zeros, the transition leads from no other
state to all-zero, and a reset leaves the core unseeded. -/
theorem everyStepKeepsSeededLanesNonzero : Obligations.EveryStepKeepsSeededLanesNonzero := by
  intro s t hs hstep
  obtain ⟨-, rfl⟩ | ⟨rest, seed, rfl⟩ | ⟨rest, r, rfl⟩ | ⟨rest, rfl⟩ | ⟨rest, rfl⟩ := step_next_cases hstep
  · exact hs
  · exact fun _ => seedLanes_ne_zero seed s.lanes
  · exact fun hseeded => generatorNext_ne_zero (hs hseeded)
  · exact hs
  · exact nonzeroWhenSeeded_of_unseeded rfl

/-- Settles O45: the core is unseeded after reset, and both invariants are about a seeded one. -/
theorem invariantsHoldAtReset : Obligations.InvariantsHoldAtReset :=
  ⟨nonzeroWhenSeeded_of_unseeded State.reset_seeded, onStream_of_unseeded State.reset_seeded⟩

end Sys2Proof.Safety
end

section
namespace Sys2Proof.Machine

/-! ### Reset and the frames of the commands (R22, R33, R85) -/

/-- Settles O11, field by field. -/
theorem stateAfterReset : Obligations.StateAfterReset :=
  ⟨State.reset_seeded, State.reset_steps, State.reset_inputs, State.reset_responses, State.reset_refusedByModel⟩

/-- The frame of a step command, whatever form it gives its response. -/
theorem advanceStream_frame {form : Word → Word} {s t : State} (h : advanceStream form s = .next t) :
    t.inputs = s.inputs ∧ s.responses <+: t.responses ∧ t.seeded = s.seeded ∧ t.steps = s.steps + 1 ∧
      t.resets = s.resets ∧ t.refusedByModel = (s.refusedByModel || !s.seeded) := by
  rw [advanceStream_eq] at h
  cases h
  exact ⟨rfl, List.prefix_append _ _, rfl, rfl, rfl, rfl⟩

theorem exec_init_frame {seed : Word} {s t : State} (h : exec (.init seed) s = .next t) :
    t.inputs = s.inputs ∧ t.responses = s.responses ∧ t.seeded = true ∧ t.steps = 0 ∧
      t.resets = s.resets ∧ t.refusedByModel = s.refusedByModel := by
  rw [exec_init] at h
  cases h
  exact ⟨rfl, rfl, rfl, rfl, rfl, rfl⟩

/-- Settles O14, by the frame of `INIT` and the one frame of both step commands. -/
theorem frameOfTheCommands : Obligations.FrameOfTheCommands :=
  ⟨fun _ _ _ => exec_init_frame, fun _ _ => advanceStream_frame, fun _ _ => advanceStream_frame⟩

/-- `INIT` answers the same from states that agree in what it leaves alone (R24, R85). -/
theorem exec_init_congr (seed : Word) {s s' : State} (hin : s.inputs = s'.inputs)
    (hresp : s.responses = s'.responses) (hresets : s.resets = s'.resets)
    (hrefused : s.refusedByModel = s'.refusedByModel) : exec (.init seed) s = exec (.init seed) s' := by
  rw [exec_init, exec_init, hin, hresp, hresets, hrefused, seedLanes_ignores_old seed s.lanes s'.lanes]

/-- Settles O20: the first clause is `exec_init_congr`, the second is its case of the state `INIT` answers, whose frame
is that of the state before. -/
theorem initIgnoresTheOldState : Obligations.InitIgnoresTheOldState := by
  refine ⟨fun seed _ _ => exec_init_congr seed, fun seed s t h => ?_⟩
  obtain ⟨hin, hresp, -, -, hresets, hrefused⟩ := exec_init_frame h
  rw [exec_init_congr seed hin hresp hresets hrefused, h]

end Sys2Proof.Machine
end

section
namespace Sys2Proof.Machine

/-! ### The step, by the input at the head -/

section
variable {s : State} {rest : List HostInput}

theorem step_idle (h : s.inputs = []) : step s = .next s := step_of_settled (fetch_idle h)

theorem step_takeResponse (h : s.inputs = .takeResponse :: rest) : step s = .next (s.consume rest).takeOldest :=
  step_of_settled (fetch_takeResponse h)

theorem step_reset {presented : Option CommandWord} (h : s.inputs = .reset presented :: rest) :
    step s = .next (s.consume rest).resetEvent :=
  step_of_settled (fetch_reset h)

theorem step_reserved {w : CommandWord} {arg : Word} (h : s.inputs = .command w :: rest)
    (hd : decode w = .reserved arg) : step s = .refused .reservedCommand :=
  step_of_settled (fetch_reserved h hd)

theorem step_command {w : CommandWord} {i : Instr} (h : s.inputs = .command w :: rest)
    (hd : decode w = .command i) : step s = exec i (s.consume rest) :=
  step_of_run (fetch_command h hd)

end

/-- A command is an `INIT` or one of the two step commands. -/
theorem instr_cases (i : Instr) : (∃ seed, i = .init seed) ∨ ∃ kind : StepKind, i = kind.instr := by
  cases i with
  | init seed => exact .inl ⟨seed, rfl⟩
  | nextU64 => exact .inr ⟨.integer, rfl⟩
  | nextDouble => exact .inr ⟨.double, rfl⟩

/-- Both step commands advance the stream, each with its own form of the response (R148). -/
theorem exec_stepKind (kind : StepKind) (s : State) : exec kind.instr s = advanceStream kind.response s := by
  cases kind <;> rfl

end Sys2Proof.Machine

namespace Sys2Proof.Safety

open Sys2Proof.Machine

/-! ### The host's contract, one input at a time (R65, R192) -/

theorem obeysContract_init {w : CommandWord} {seed : Word} (hd : decode w = .command (.init seed)) (b : Bool)
    (rest : List HostInput) : obeysContract b (.command w :: rest) = obeysContract true rest := by
  simp [obeysContract, hd]

theorem obeysContract_stepKind {w : CommandWord} {kind : StepKind} (hd : decode w = .command kind.instr) (b : Bool)
    (rest : List HostInput) : obeysContract b (.command w :: rest) = (b && obeysContract b rest) := by
  cases kind <;> simp [obeysContract, hd, StepKind.instr]

theorem obeysContract_reserved {w : CommandWord} {arg : Word} (hd : decode w = .reserved arg) (b : Bool)
    (rest : List HostInput) : obeysContract b (.command w :: rest) = false := by
  simp [obeysContract, hd]

/-- The step that comes next, if it is a step command, runs on seeded lanes. -/
def SeededIfStepping (s : State) : Prop :=
  ∀ w rest (kind : StepKind), s.inputs = .command w :: rest → decode w = .command kind.instr → s.seeded = true

theorem seededIfStepping_of_obeysContract {s : State} (h : obeysContract s.seeded s.inputs = true) :
    SeededIfStepping s := by
  intro w rest kind hin hd
  rw [hin, obeysContract_stepKind hd, Bool.and_eq_true] at h
  exact h.1

/-- A host that keeps its contract still keeps it after a step. -/
theorem step_keeps_obeysContract {s t : State} (h : obeysContract s.seeded s.inputs = true) (hstep : step s = .next t) :
    obeysContract t.seeded t.inputs = true := by
  cases hin : s.inputs with
  | nil =>
    rw [step_idle hin] at hstep
    cases hstep
    exact h
  | cons head rest =>
    rw [hin] at h
    cases head with
    | takeResponse =>
      rw [step_takeResponse hin] at hstep
      cases hstep
      exact h
    | reset presented =>
      rw [step_reset hin] at hstep
      cases hstep
      exact h
    | command w =>
      cases hd : decode w with
      | reserved arg =>
        rw [step_reserved hin hd] at hstep
        cases hstep
      | command i =>
        rw [step_command hin hd] at hstep
        obtain ⟨seed, rfl⟩ | ⟨kind, rfl⟩ := instr_cases i
        · rw [exec_init] at hstep
          cases hstep
          rwa [obeysContract_init hd] at h
        · rw [exec_stepKind, advanceStream_eq] at hstep
          cases hstep
          rw [obeysContract_stepKind hd, Bool.and_eq_true] at h
          exact h.2

/-- The model refuses a step command that runs on unseeded lanes (R107, R176). -/
theorem modelStep_of_unseeded_step {s : State} {w : CommandWord} {rest : List HostInput} {kind : StepKind}
    (hin : s.inputs = .command w :: rest) (hd : decode w = .command kind.instr) (hs : s.seeded = false) :
    modelStep s = .refused .unseededStep := by
  have hstep := step_command hin hd
  rw [exec_stepKind, advanceStream_eq] at hstep
  rw [modelStep_of_next hstep]
  simp [hs]

/-! ### Two runs in lock step -/

/-- Two outcomes that are the same refusal, or next states in the relation `Rel`. -/
inductive Matched {R : Type} (Rel : State → State → Prop) :
    Host.Outcome State Fault R → Host.Outcome State Fault R → Prop where
  | next {s t : State} (h : Rel s t) : Matched Rel (.next s) (.next t)
  | refused (r : R) : Matched Rel (.refused r) (.refused r)

section
variable {R : Type} {Rel : State → State → Prop} {o p : Host.Outcome State Fault R}

theorem Matched.agreeWhereSeeded (hRel : ∀ s t, Rel s t → SameButLanes s t ∧ (s.seeded = true → s.lanes = t.lanes))
    (h : Matched Rel o p) : AgreeWhereSeeded o p := by
  cases h with
  | next h => exact hRel _ _ h
  | refused r => rfl

/-- What every next state of the first outcome satisfies can be added to the relation. -/
theorem Matched.and_left {P : State → Prop} (h : Matched Rel o p) (hP : ∀ s, o = .next s → P s) :
    Matched (fun s t => Rel s t ∧ P s) o p := by
  cases h with
  | next h => exact .next ⟨h, hP _ rfl⟩
  | refused r => exact .refused r

/-- A relation that one step keeps, runs of any length keep. -/
theorem runWith_matched {oneStep : State → Host.Outcome State Fault R}
    (hstep : ∀ s t, Rel s t → Matched Rel (oneStep s) (oneStep t)) (k : Nat) {s t : State} (h : Rel s t) :
    Matched Rel (runWith oneStep k s) (runWith oneStep k t) := by
  induction k generalizing s t with
  | zero => exact .next h
  | succ k ih =>
    have hone := hstep s t h
    rw [runWith, runWith]
    generalize oneStep s = o, oneStep t = p at hone
    cases hone with
    | next h' => exact ih h'
    | refused r => exact .refused r

end

/-! ### States alike but for unseeded lanes -/

/-- Two states that differ at most in unseeded lanes, the model's count of resets and, unless `words` holds, in what the
pending responses say. -/
structure Alike (words : Prop) (s t : State) : Prop where
  seeded : s.seeded = t.seeded
  steps : s.steps = t.steps
  inputs : s.inputs = t.inputs
  refused : s.refusedByModel = t.refusedByModel
  lanes : s.seeded = true → s.lanes = t.lanes
  pending : s.responses.length = t.responses.length
  responses : words → s.responses = t.responses

section
variable {words : Prop} {s t : State}

theorem Alike.of_sameButLanes (h : SameButLanes s t) (hrefused : s.refusedByModel = t.refusedByModel)
    (hs : s.seeded = false) : Alike words s t := by
  obtain ⟨hseeded, hsteps, hin, hresp⟩ := h
  exact ⟨hseeded, hsteps, hin, hrefused, by simp [hs], by rw [hresp], fun _ => hresp⟩

theorem Alike.agreeWhereSeeded (h : Alike True s t) : SameButLanes s t ∧ (s.seeded = true → s.lanes = t.lanes) :=
  ⟨⟨h.seeded, h.steps, h.inputs, h.responses trivial⟩, h.lanes⟩

theorem Matched.agreeButForWords {o p : Host.Outcome State Fault Refusal} (h : Matched (Alike words) o p) :
    AgreeButForWords o p := by
  cases h with
  | next h => exact ⟨h.seeded, h.steps, h.inputs, h.pending, h.lanes⟩
  | refused r => rfl

theorem Alike.consume (h : Alike words s t) (rest : List HostInput) : Alike words (s.consume rest) (t.consume rest) :=
  { h with inputs := rfl }

theorem Alike.takeOldest (h : Alike words s t) : Alike words s.takeOldest t.takeOldest :=
  { h with
    pending := by simp [h.pending]
    responses := fun hw => by simp [h.responses hw] }

/-- A reset leaves nothing of the lanes and responses (R190). -/
theorem Alike.resetEvent (h : Alike words s t) : Alike words s.resetEvent t.resetEvent where
  seeded := rfl
  steps := rfl
  inputs := h.inputs
  refused := h.refused
  lanes := nofun
  pending := rfl
  responses _ := rfl

/-- `INIT` overwrites every lane, so its two results have the same (R24). -/
theorem Alike.exec_init (h : Alike words s t) (seed : Word) :
    Matched (Alike words) (exec (.init seed) s) (exec (.init seed) t) := by
  rw [Machine.exec_init, Machine.exec_init]
  exact .next { h with seeded := rfl, steps := rfl, lanes := fun _ => seedLanes_ignores_old seed s.lanes t.lanes }

/-- A step command sends one word more from each state, the same word if the lanes are seeded. -/
theorem Alike.advanceStream (h : Alike words s t) (hs : words → s.seeded = true) (form : Word → Word) :
    Matched (Alike words) (advanceStream form s) (advanceStream form t) := by
  rw [advanceStream_eq, advanceStream_eq]
  exact .next
    { h with
      steps := by simp [h.steps]
      refused := by simp [h.refused, h.seeded]
      lanes := fun hseeded => by simp [h.lanes hseeded]
      pending := by simp [h.pending]
      responses := fun hw => by simp [h.responses hw, h.lanes (hs hw)] }

/-- One step of the core from states that are alike. -/
theorem Alike.step (h : Alike words s t) (hs : words → SeededIfStepping s) :
    Matched (Alike words) (step s) (step t) := by
  have hint := h.inputs.symm
  cases hin : s.inputs with
  | nil =>
    rw [hin] at hint
    rw [step_idle hin, step_idle hint]
    exact .next h
  | cons head rest =>
    rw [hin] at hint
    have hrest := h.consume rest
    cases head with
    | takeResponse =>
      rw [step_takeResponse hin, step_takeResponse hint]
      exact .next hrest.takeOldest
    | reset presented =>
      rw [step_reset hin, step_reset hint]
      exact .next hrest.resetEvent
    | command w =>
      cases hd : decode w with
      | reserved arg =>
        rw [step_reserved hin hd, step_reserved hint hd]
        exact .refused _
      | command i =>
        rw [step_command hin hd, step_command hint hd]
        obtain ⟨seed, rfl⟩ | ⟨kind, rfl⟩ := instr_cases i
        · exact hrest.exec_init seed
        · rw [exec_stepKind, exec_stepKind]
          exact hrest.advanceStream (fun hw => hs hw w rest kind hin hd) kind.response

/-- One step as the model reports it: it refuses both states where the lanes would show, and else reports the core. -/
theorem Alike.modelStep (h : Alike True s t) : Matched (Alike True) (modelStep s) (modelStep t) := by
  by_cases hs : SeededIfStepping s
  · have hstep := h.step fun _ => hs
    generalize hos : Machine.step s = o, hot : Machine.step t = p at hstep
    cases hstep with
    | next hnext =>
      rw [modelStep_of_next hos, modelStep_of_next hot, hnext.refused]
      split
      · exact .refused _
      · exact .next hnext
    | refused r =>
      rw [modelStep_of_refused hos, modelStep_of_refused hot]
      exact .refused _
  · simp only [SeededIfStepping, not_forall, Bool.not_eq_true] at hs
    obtain ⟨w, rest, kind, hin, hd, hunseeded⟩ := hs
    rw [modelStep_of_unseeded_step hin hd hunseeded,
      modelStep_of_unseeded_step (h.inputs ▸ hin) hd (h.seeded ▸ hunseeded)]
    exact .refused _

end

/-- Settles O48, by three lock-step runs of states that are alike: of the model, of the core under the host's contract,
and of the core without the words it sends. -/
theorem lanesBeforeInitNeverMatter : Obligations.LanesBeforeInitNeverMatter := by
  intro s t hst hrefused hs
  have halike (words : Prop) : Alike words s t := .of_sameButLanes hst hrefused hs
  refine ⟨fun k => ?model, fun hcontract k => ?contract, fun k => ?core⟩
  case model =>
    exact (runWith_matched (fun _ _ h => h.modelStep) k (halike True)).agreeWhereSeeded fun _ _ h => h.agreeWhereSeeded
  case contract =>
    refine (runWith_matched (Rel := fun s t => Alike True s t ∧ obeysContract s.seeded s.inputs = true)
      ?_ k ⟨halike True, hcontract⟩).agreeWhereSeeded fun _ _ h => h.1.agreeWhereSeeded
    intro s t ⟨h, hobeys⟩
    exact (h.step fun _ => seededIfStepping_of_obeysContract hobeys).and_left fun _ => step_keeps_obeysContract hobeys
  case core =>
    exact (runWith_matched (fun _ _ h => h.step nofun) k (halike False)).agreeButForWords

end Sys2Proof.Safety
end

section
namespace Sys2Proof.Machine

/-! ### Commands in the order presented, responses in the order sent (R46 to R48) -/

/-- Settles O8: `step_idle`, and `step_command`, which says nothing of the inputs behind the command. -/
theorem nothingHappensBetweenCommands : Obligations.NothingHappensBetweenCommands :=
  ⟨fun _ => step_idle, fun _ _ _ _ => step_command⟩

/-- Settles O7, by `step_command`: every decoded command is executed, so the well-formed ones are. -/
theorem stepRunsTheDecodedCommand : Obligations.StepRunsTheDecodedCommand :=
  fun _ _ _ _ hin hd _ => step_command hin hd

theorem State.takeOldest_of_responses_cons {s : State} {r : Word} {later : List Word} (h : s.responses = r :: later) :
    s.takeOldest = { s with responses := later } := by
  rw [State.takeOldest, h, List.tail_cons]

theorem State.takeOldest_of_responses_nil {s : State} (h : s.responses = []) : s.takeOldest = s := by
  rw [State.takeOldest, h, List.tail_nil, ← h]

/-- Settles O12, by the two cases of the response port: the oldest response leaves it, or there is none to take. -/
theorem responsesAreTakenInOrder : Obligations.ResponsesAreTakenInOrder := by
  intro s rest hin
  refine ⟨fun r later hresp => ?pending, fun hresp => ?none⟩
  case pending =>
    have hport : (s.consume rest).responses = r :: later := hresp
    rw [step_takeResponse hin, State.takeOldest_of_responses_cons hport, State.consume]
  case none =>
    have hport : (s.consume rest).responses = [] := hresp
    rw [step_takeResponse hin, State.takeOldest_of_responses_nil hport, State.consume]

end Sys2Proof.Machine
end

section
namespace Sys2Proof

/-! ### Command words, their fields and the decoder (R60 to R62, R65, R70) -/

/-- Settles O1: the number of a word is that of its two fields put together, and each field is its part of it. -/
theorem commandWordIsOpAndArg : Obligations.CommandWordIsOpAndArg := by
  intro w
  refine ⟨?_, opField_toNat w, argField_toNat w⟩
  rw [← commandWord_toNat, commandWord_fields]

/-- Two command words are equal exactly when both fields are. -/
@[simp] theorem commandWord_inj {op op' : BitVec 2} {a b : Word} :
    commandWord op a = commandWord op' b ↔ op = op' ∧ a = b := by
  refine ⟨fun h => ⟨?_, ?_⟩, fun ⟨hop, harg⟩ => by rw [hop, harg]⟩
  · simpa using congrArg opField h
  · simpa using congrArg argField h

/-- A word is a code with the word's own `arg` exactly when that is the word's code. -/
theorem eq_commandWord_argField_iff {w : CommandWord} {op : BitVec 2} :
    w = commandWord op (argField w) ↔ opField w = op :=
  ⟨fun h => by rw [h, opField_commandWord], fun h => by rw [← h, commandWord_fields]⟩

/-- Every command word has one of the four codes in front of its `arg` (R66). -/
theorem commandWord_cases (w : CommandWord) :
    ∃ arg, w = commandWord 0 arg ∨ w = commandWord 1 arg ∨ w = commandWord 2 arg ∨ w = commandWord 3 arg := by
  refine ⟨argField w, ?_⟩
  simpa only [eq_commandWord_argField_iff] using opcode_cases (opField w)

/-! The decoder's four rows, each code in the form `simp` gives a literal of two bits. -/

@[simp] theorem decode_commandWord_zero (arg : Word) : decode (commandWord 0#2 arg) = .command (.init arg) := by
  simp [decode]

@[simp] theorem decode_commandWord_one (arg : Word) : decode (commandWord 1#2 arg) = .command .nextU64 := by
  simp [decode]

@[simp] theorem decode_commandWord_two (arg : Word) : decode (commandWord 2#2 arg) = .command .nextDouble := by
  simp [decode]

@[simp] theorem decode_commandWord_three (arg : Word) : decode (commandWord 3#2 arg) = .reserved arg := by
  simp [decode]

theorem encode_toNat (i : Instr) : (encode i).toNat = i.opcode.toNat * 2 ^ 64 + i.canonicalArg.toNat :=
  commandWord_toNat i.opcode i.canonicalArg

/-- Settles O2: the four rows of the decoder, and the number of each canonical spelling. -/
theorem decodeFollowsTheOpcodeMap : Obligations.DecodeFollowsTheOpcodeMap :=
  ⟨decode_commandWord_zero, decode_commandWord_one, decode_commandWord_two, decode_commandWord_three,
    fun seed => encode_toNat (.init seed), encode_toNat .nextU64, encode_toNat .nextDouble⟩

section
variable {w : CommandWord}

theorem decode_eq_init_iff {seed : Word} : decode w = .command (.init seed) ↔ w = commandWord 0 seed := by
  obtain ⟨arg, rfl | rfl | rfl | rfl⟩ := commandWord_cases w <;> simp

theorem decode_eq_nextU64_iff : decode w = .command .nextU64 ↔ ∃ arg, w = commandWord 1 arg := by
  obtain ⟨arg, rfl | rfl | rfl | rfl⟩ := commandWord_cases w <;> simp

theorem decode_eq_nextDouble_iff : decode w = .command .nextDouble ↔ ∃ arg, w = commandWord 2 arg := by
  obtain ⟨arg, rfl | rfl | rfl | rfl⟩ := commandWord_cases w <;> simp

theorem decode_eq_reserved_iff {arg : Word} : decode w = .reserved arg ↔ w = commandWord 3 arg := by
  obtain ⟨arg', rfl | rfl | rfl | rfl⟩ := commandWord_cases w <;> simp

/-- A word that decodes to a command has the command's opcode, whatever its `arg`. -/
theorem opField_of_decode {i : Instr} (h : decode w = .command i) : opField w = i.opcode := by
  cases i with
  | init seed => rw [decode_eq_init_iff.1 h, opField_commandWord, Instr.opcode]
  | nextU64 =>
    obtain ⟨arg, rfl⟩ := decode_eq_nextU64_iff.1 h
    exact opField_commandWord 1 arg
  | nextDouble =>
    obtain ⟨arg, rfl⟩ := decode_eq_nextDouble_iff.1 h
    exact opField_commandWord 2 arg

theorem decode_of_opField_three (h : opField w = 3) : decode w = .reserved (argField w) :=
  decode_eq_reserved_iff.2 (eq_commandWord_argField_iff.2 h)

/-- A row of the opcode table wide enough for the port reads every command word as itself. -/
theorem tableCommandWord_toNat {nbits : Nat} (h : 66 ≤ nbits) (w : CommandWord) :
    tableCommandWord nbits w.toNat = some w := by
  have hmod : w.toNat % 2 ^ nbits = w.toNat :=
    Nat.mod_eq_of_lt (w.isLt.trans_le (Nat.pow_le_pow_right (by decide) h))
  rw [tableCommandWord, hmod, if_pos w.isLt, BitVec.ofNat_toNat, BitVec.setWidth_eq]

theorem decodeTableWord_toNat {nbits : Nat} {i : Instr} (h : 66 ≤ nbits) (hd : decode w = .command i) :
    decodeTableWord nbits w.toNat = some i := by
  simp [decodeTableWord, tableCommandWord_toNat h, hd]

end

/-- Settles O4: each clause is the decoder's row read backwards, and the `arg` of a spelling is its own field. -/
theorem spellingsOfEachCommand : Obligations.SpellingsOfEachCommand := by
  refine fun w => ⟨fun _ => decode_eq_init_iff, decode_eq_nextU64_iff, decode_eq_nextDouble_iff,
    fun _ => decode_eq_reserved_iff, fun op a b h => ?_⟩
  exact (commandWord_inj.1 h).2

/-- Decoding gives an encoded command back (R70). -/
theorem decode_encode (i : Instr) : decode (encode i) = .command i := by
  cases i with
  | init seed => exact decode_commandWord_zero seed
  | nextU64 => exact decode_commandWord_one 0
  | nextDouble => exact decode_commandWord_two 0

/-- Settles O3: the round trip is `decode_encode`; a word that decodes to `i` has the opcode of `i` and so is that
opcode with its own `arg`, and an `INIT` has no spelling but one. -/
theorem decodeInvertsEncode : Obligations.DecodeInvertsEncode := by
  refine fun i _ => ⟨decode_encode i, decodeTableWord_toNat (by decide) (decode_encode i), fun w hd => ?_⟩
  have hop := opField_of_decode hd
  refine ⟨hop, (eq_commandWord_argField_iff.2 hop).symm, ?_⟩
  rintro ⟨seed, rfl⟩
  exact decode_eq_init_iff.1 hd

end Sys2Proof

namespace Sys2Proof.Machine

/-! ### The reserved code and the responses of the commands (R64, R65) -/

/-- Settles O9: a word with `op = 3` decodes to the reserved code, which the step refuses. -/
theorem reservedCodeIsRefused : Obligations.ReservedCodeIsRefused :=
  fun _ _ _ hin hop => step_reserved hin (decode_of_opField_three hop)

/-- The one response of a step command, in the form the command gives it. -/
theorem advanceStream_responses {form : Word → Word} {s t : State} (h : advanceStream form s = .next t) :
    t.responses = s.responses ++ [form (generatorOutput s.lanes)] := by
  rw [advanceStream_eq] at h
  cases h
  rfl

/-- Settles O13, by the frame of `INIT` and the one response of both step commands. -/
theorem whichCommandsRespond : Obligations.WhichCommandsRespond := by
  refine ⟨fun seed s t h => ?_, fun _ _ h => ⟨_, advanceStream_responses h⟩,
    fun _ _ h => ⟨_, advanceStream_responses h⟩⟩
  obtain ⟨-, hresp, -⟩ := exec_init_frame h
  exact hresp

/-! ### The assembler, one line at a time (R68) -/

section
variable {line : List Char} {rest : List (List Char)}

theorem assemble_nil : assemble [] = .ok [] := rfl

theorem assemble_cons_of_blank (h : assembleLine line = .blank) : assemble (line :: rest) = assemble rest := by
  simp [assemble, h]

theorem assemble_cons_of_command {i : Instr} {words : List CommandWord} (h : assembleLine line = .command i)
    (hrest : assemble rest = .ok words) : assemble (line :: rest) = .ok (encode i :: words) := by
  simp [assemble, h, hrest]

end

/-- Settles O6: each line is read on its own, a canonical one as its command and a comment as none, and the program's
words are the encodings of its commands. -/
theorem canonicalLinesAssemble : Obligations.CanonicalLinesAssemble := by
  refine ⟨?program, by decide, by decide⟩
  have hhex : assembleLine "INIT 0x0123456789ABCDEF".toList = .command (.init 0x0123456789ABCDEF) := by decide
  have hnext : assembleLine "NEXT_U64 ; one integer".toList = .command .nextU64 := by decide
  have hcomment : assembleLine "; a comment".toList = .blank := by decide
  have hdouble : assembleLine "NEXT_DOUBLE".toList = .command .nextDouble := by decide
  have hdecimal : assembleLine "INIT 42".toList = .command (.init 42) := by decide
  have hlast := assemble_cons_of_command hdouble (assemble_cons_of_command hdecimal assemble_nil)
  exact assemble_cons_of_command hhex <| assemble_cons_of_command hnext <|
    (assemble_cons_of_blank hcomment).trans hlast

end Sys2Proof.Machine
end

section
namespace Sys2Proof.Machine

/-! ### The Seeder: its stages, one pass, and the lanes `INIT` leaves (R80 to R91, R147) -/

/-- The one word that `x + c` sends to 0. -/
theorem add_eq_zero_iff_of_neg_eq {x c d : Word} (h : -c = d) : x + c = 0 ↔ x = d := by
  rw [← h, add_eq_zero_iff_eq_neg]

theorem stageA_eq (acc : Word) : stageA acc = acc + 0x9E3779B97F4A7C15 := rfl

theorem stageA_eq_zero_iff {acc : Word} : stageA acc = 0 ↔ acc = 0x61C8864680B583EB :=
  add_eq_zero_iff_of_neg_eq (by decide)

theorem stageA_injective : Function.Injective stageA := add_left_injective Config.gamma

/-- A word below `2^k` has nothing left after a right shift by `k`, so the XOR-shift leaves it as it is (R83). -/
theorem xorShiftRight_of_lt {z : Word} {k : Nat} (h : z.toNat < 2 ^ k) : xorShiftRight z k = z := by
  have hshift : z >>> k = 0#64 := by
    apply BitVec.eq_of_toNat_eq
    rw [BitVec.toNat_ushiftRight, Nat.shiftRight_eq_div_pow, Nat.div_eq_of_lt h, BitVec.toNat_zero]
  rw [xorShiftRight, hshift, BitVec.xor_zero]

theorem stageD_of_lt {v : Word} (h : v.toNat < 2 ^ 31) : stageD v = v := xorShiftRight_of_lt h

/-- Settles O16: the formulas are the stages' definitions, and what is left after the two general corner cases is
arithmetic on the rules' worked examples. -/
theorem mixingStages : Obligations.MixingStages := by
  refine ⟨stageA_eq, fun _ => stageA_eq_zero_iff, ?_, ?_, ?_, fun _ => rfl, ?_, ?_, ?_, ?_, ?_, fun _ => rfl,
    ?_, ?_, ?_, ?_, ?_, fun _ => rfl, ?_, fun _ => stageD_of_lt, ?_, ?_, ?_⟩
  all_goals decide

theorem smNext_eq (acc : Word) : smNext acc = (stageA acc, mix (stageA acc)) := rfl

/-- Settles O17: both forms are `smNext_eq`, whose second component is the three stages after A. -/
theorem onePassOfThePipeline : Obligations.OnePassOfThePipeline :=
  ⟨smNext_eq, smNext_eq, by decide⟩

/-- A pass keeps the advanced accumulator and makes the lane of it, not of the one it was given (R84). -/
theorem smNext_eq_iff {acc acc' lane : Word} :
    smNext acc = (acc', lane) ↔ acc' = acc + 0x9E3779B97F4A7C15 ∧ lane = mix acc' := by
  rw [smNext_eq, stageA_eq, Prod.mk.injEq, eq_comm (b := acc'), eq_comm (b := lane)]
  exact and_congr_right fun h => by rw [h]

/-- The loop of `INIT` puts the values of four passes, each on the accumulator of the one before, into the lanes in
order (R85, R86). -/
theorem seedLanes_of_passes {seed a1 a2 a3 a4 l0 l1 l2 l3 : Word} (p0 : smNext seed = (a1, l0))
    (p1 : smNext a1 = (a2, l1)) (p2 : smNext a2 = (a3, l2)) (p3 : smNext a3 = (a4, l3)) (old : Lanes) :
    seedLanes seed old = ⟨l0, l1, l2, l3⟩ := by
  simp only [seedLanes, seedOperand, laneOrder, fillLanes, p0, p1, p2, p3, Lanes.write]

/-- The accumulator runs on from lane to lane, so each pass adds one more `GAMMA` (R89). -/
theorem accumulators_of_passes {seed a1 a2 a3 a4 l0 l1 l2 l3 : Word} (p0 : smNext seed = (a1, l0))
    (p1 : smNext a1 = (a2, l1)) (p2 : smNext a2 = (a3, l2)) (p3 : smNext a3 = (a4, l3)) :
    a1 = seed + 1 * 0x9E3779B97F4A7C15 ∧ a2 = seed + 2 * 0x9E3779B97F4A7C15 ∧
      a3 = seed + 3 * 0x9E3779B97F4A7C15 ∧ a4 = seed + 4 * 0x9E3779B97F4A7C15 := by
  obtain ⟨rfl, -⟩ := smNext_eq_iff.1 p0
  obtain ⟨rfl, -⟩ := smNext_eq_iff.1 p1
  obtain ⟨rfl, -⟩ := smNext_eq_iff.1 p2
  obtain ⟨rfl, -⟩ := smNext_eq_iff.1 p3
  simp [BitVec.add_assoc]

/-- The lanes in closed form, the multiples of `GAMMA` as numbers (R89). -/
theorem seedLanes_eq (seed : Word) (old : Lanes) :
    seedLanes seed old =
      ⟨mix (seed + 0x9E3779B97F4A7C15), mix (seed + 0x3C6EF372FE94F82A),
        mix (seed + 0xDAA66D2C7DDF743F), mix (seed + 0x78DDE6E5FD29F054)⟩ := by
  rw [seedLanes_unrolled]
  simp [stageA_eq, BitVec.add_assoc]

/-- The worked example of R89, pass by pass (R147). -/
theorem seedLanes_zero (old : Lanes) :
    seedLanes 0 old = ⟨0xE220A8397B1DCDAF, 0x6E789E6AA1B965F4, 0x06C45D188009454F, 0xF88BB8A8724C81EC⟩ :=
  seedLanes_of_passes (a1 := 0x9E3779B97F4A7C15) (a2 := 0x3C6EF372FE94F82A) (a3 := 0xDAA66D2C7DDF743F)
    (a4 := 0x78DDE6E5FD29F054) (by decide) (by decide) (by decide) (by decide) old

theorem exec_init_lanes {seed : Word} {s t : State} (h : exec (.init seed) s = .next t) :
    t.lanes = seedLanes seed s.lanes := by
  rw [exec_init] at h
  cases h
  rfl

/-- Settles O18: `exec_init` with the closed form of the lanes, then the four passes of the loop, then the worked
example. -/
theorem initFillsTheLanes : Obligations.InitFillsTheLanes := by
  refine ⟨fun seed s => ?closedForm, fun seed _ _ _ _ _ _ _ _ p0 p1 p2 p3 => ?passes, fun s t h => ?zeroSeed⟩
  case closedForm => rw [exec_init, seedLanes_eq]
  case passes =>
    obtain ⟨h1, h2, h3, h4⟩ := accumulators_of_passes p0 p1 p2 p3
    refine ⟨h1, h2, h3, h4, fun s t h => ?_⟩
    rw [exec_init_lanes h, seedLanes_of_passes p0 p1 p2 p3]
  case zeroSeed => rw [exec_init_lanes h, seedLanes_zero]

/-! A word has finitely many values, so each injective part of the pipeline is a bijection (R90). -/

theorem bijective_of_injective {f : Word → Word} (h : Function.Injective f) : Function.Bijective f :=
  Finite.injective_iff_bijective.1 h

/-- Settles O21: every part is injective, and an injective map that sends 0 to 0 sends nothing else there. -/
theorem mixIsABijection : Obligations.MixIsABijection := by
  refine ⟨fun k hk _ => ?xorShift, fun m hm => ?oddFactor, bijective_of_injective stageA_injective,
    bijective_of_injective stageB_injective, bijective_of_injective stageC_injective,
    bijective_of_injective stageD_injective, bijective_of_injective mix_injective, fun _ => mix_eq_zero_iff,
    bijective_of_injective (mix_injective.comp stageA_injective)⟩
  case xorShift =>
    have hinj := xorShiftRight_injective hk
    have hzero : xorShiftRight 0 k = 0 := xorShiftRight_of_lt (Nat.two_pow_pos k)
    exact ⟨bijective_of_injective hinj, fun _ => hinj.eq_iff' hzero⟩
  case oddFactor =>
    have hinj := mul_injective_of_odd hm
    exact ⟨bijective_of_injective hinj, fun _ => hinj.eq_iff' (zero_mul m)⟩

/-! The fresh lanes are `mix` of four different accumulators (R91). -/

theorem seedLanes_read (seed : Word) (old : Lanes) (i : Fin 4) :
    (seedLanes seed old).read i = mix (seed + BitVec.ofNat 64 (i + 1) * Config.gamma) := by
  rw [seedLanes_eq]
  match i with
  | 0 | 1 | 2 | 3 => rfl

theorem multiples_of_gamma_injective :
    Function.Injective fun i : Fin 4 => BitVec.ofNat 64 (i + 1) * Config.gamma := by decide

theorem seedLanes_read_injective (seed : Word) (old : Lanes) : Function.Injective (seedLanes seed old).read := by
  intro i j h
  rw [seedLanes_read, seedLanes_read] at h
  exact multiples_of_gamma_injective (BitVec.add_right_inj seed |>.1 (mix_injective h))

/-- `mix` keeps the only zero of its argument, so a lane is 0 for the one seed that cancels its multiple of `GAMMA`. -/
theorem mix_add_eq_zero_iff {seed c d : Word} (h : -c = d) : mix (seed + c) = 0 ↔ seed = d :=
  mix_eq_zero_iff.trans (add_eq_zero_iff_of_neg_eq h)

/-- Settles O22: the lanes are four different values, so only one of them can be 0, and each is 0 for one seed only. -/
theorem freshLanesAreDifferent : Obligations.FreshLanesAreDifferent := by
  intro seed s t h
  have hinj := seedLanes_read_injective seed s.lanes
  rw [exec_init_lanes h]
  refine ⟨fun i j hij => hinj.ne hij, fun i j hi hj => hinj (hi.trans hj.symm), seedLanes_ne_zero seed s.lanes, ?_⟩
  rw [seedLanes_eq]
  exact ⟨mix_add_eq_zero_iff (by decide), mix_add_eq_zero_iff (by decide), mix_add_eq_zero_iff (by decide),
    mix_add_eq_zero_iff (by decide)⟩

theorem seedLanes_zero_read_ne_zero (old : Lanes) : ∀ i, (seedLanes 0 old).read i ≠ 0 := by
  rw [seedLanes_zero]
  decide

/-- Settles O19: `INIT` answers in every state, `streamLanes 0 0` is what it leaves for seed 0, and none of the lanes of
its worked example is 0. -/
theorem zeroSeedIsOrdinary : Obligations.ZeroSeedIsOrdinary := by
  refine ⟨fun seed => exec_completes (.init seed), fun s => ⟨_, exec_init 0 s, ?stream, ?nonzero, ?different⟩⟩
  case stream => exact seedLanes_ignores_old 0 s.lanes Lanes.zero
  case nonzero => exact seedLanes_zero_read_ne_zero s.lanes
  case different => exact fun i j hij => (seedLanes_read_injective 0 s.lanes).ne hij

end Sys2Proof.Machine
end

section
namespace Sys2Proof.Machine

/-! ### The rotation and the shift of lane 1 (R100, R104) -/

/-- Inside the domain of R13 the model's rotation is that of the library. -/
theorem rotl_eq_rotateLeft (x : Word) {k : Nat} (hk : k < 64) : rotl x k = x.rotateLeft k := by
  rw [rotl, BitVec.rotateLeft_def, Nat.mod_eq_of_lt hk]

/-- Bit `i` goes up by `k` places, and past the word's end comes back at the bottom (R100). -/
theorem getLsbD_rotl {k i : Nat} (x : Word) (hk : k < 64) (hi : i < 64) :
    (rotl x k).getLsbD ((i + k) % 64) = x.getLsbD i := by
  rw [rotl_eq_rotateLeft x hk, BitVec.getLsbD_rotateLeft, Nat.mod_eq_of_lt hk]
  by_cases hstay : i + k < 64
  · have hmod : (i + k) % 64 = i + k := Nat.mod_eq_of_lt hstay
    simp [hmod, hstay]
  · have hmod : (i + k) % 64 = i + k - 64 := by omega
    have hwrapped : i + k - 64 < k := by omega
    have hback : 64 - k + (i + k - 64) = i := by omega
    simp [hmod, hwrapped, hback]

/-- The left part of a rotation has bits from `k` up only, the right part bits below `k` only (R100). -/
theorem rotl_parts_disjoint (x : Word) {k : Nat} (hk : k ≤ 64) : (x <<< k) &&& (x >>> (64 - k)) = 0 := by
  ext i hi
  rw [← BitVec.getLsbD_eq_getElem]
  by_cases hlow : i < k
  · simp [hlow]
  · have hpast : x.getLsbD (64 - k + i) = false := BitVec.getLsbD_of_ge _ _ (by omega)
    simp [hpast]

/-- Words with no common bit: no bit position has both bits set for OR and XOR to differ at. -/
theorem or_eq_xor_of_disjoint {x y : Word} (h : x &&& y = 0) : x ||| y = x ^^^ y := by
  ext i hi
  have hbit : (x[i] && y[i]) = false := by
    rw [← BitVec.getElem_and, h]
    exact BitVec.getElem_zero hi
  rw [BitVec.getElem_or, BitVec.getElem_xor]
  cases hx : x[i] <;> simp_all

theorem rotl_eq_xor (x : Word) {k : Nat} (hk : k ≤ 64) : rotl x k = (x <<< k) ^^^ (x >>> (64 - k)) :=
  or_eq_xor_of_disjoint (rotl_parts_disjoint x hk)

theorem rotl_eq_add (x : Word) {k : Nat} (hk : k ≤ 64) : rotl x k = (x <<< k) + (x >>> (64 - k)) :=
  (BitVec.add_eq_or_of_and_eq_zero _ _ (rotl_parts_disjoint x hk)).symm

theorem rotl_injective {k : Nat} (hk : k ≤ 64) : Function.Injective fun x : Word => rotl x k :=
  Function.LeftInverse.injective (g := fun x => rotl x (64 - k)) fun x => rotl_rotl_complement x hk

theorem rotl_zero (k : Nat) : rotl 0 k = 0 := by
  simp [rotl]

/-- Every bit of a rotated word is some bit of the word, here always 1 (R100). -/
theorem rotl_allOnes {k : Nat} (hk : k < 64) : rotl (BitVec.allOnes 64) k = BitVec.allOnes 64 := by
  rw [rotl_eq_rotateLeft _ hk]
  ext i hi
  rw [BitVec.getElem_rotateLeft]
  split <;> simp only [BitVec.getElem_allOnes]

theorem xor_xor_xor_swap (x y z w : Word) : (x ^^^ y) ^^^ (z ^^^ w) = (x ^^^ z) ^^^ (y ^^^ w) := by ac_rfl

/-- As a XOR of two shifts the rotation is linear over the two-element field (R103). -/
theorem rotl_xor_distrib (x y : Word) {k : Nat} (hk : k ≤ 64) : rotl (x ^^^ y) k = rotl x k ^^^ rotl y k := by
  rw [rotl_eq_xor _ hk, rotl_eq_xor _ hk, rotl_eq_xor _ hk, BitVec.shiftLeft_xor_distrib,
    BitVec.ushiftRight_xor_distrib, xor_xor_xor_swap]

/-- Settles O24: the general clauses are the laws of `rotl` above, the rest is arithmetic on the rule's examples. -/
theorem rotateLeftMovesBits : Obligations.RotateLeftMovesBits := by
  refine ⟨fun k _ hk => ?general, fun _ => rfl, by decide, by decide, by decide, by decide, by decide⟩
  have hlt : k < 64 := by omega
  have hle : k ≤ 64 := by omega
  exact ⟨fun x _ => getLsbD_rotl x hlt,
    fun x => ⟨rotl_parts_disjoint x hle, rotl_eq_xor x hle, rotl_eq_add x hle⟩,
    fun x => rotl_rotl_complement x hle, bijective_of_injective (rotl_injective hle), rotl_zero k, rotl_allOnes hlt⟩

/-- Settles O28: `t` is lane 1 shifted, so each of its bits is 0 or the bit 17 places below. -/
theorem shiftOfLaneOneIsLogical : Obligations.ShiftOfLaneOneIsLogical := by
  refine ⟨fun S i hi => ?low, fun S i hlow hi => ?high,
    fun _ => show (0x0000800000000000 : Word) <<< 17 = 0 by decide,
    fun _ => show (0x0000400000000000 : Word) <<< 17 = 0x8000000000000000 by decide, fun _ => rfl⟩
  case low => simp [generatorShift_eq, hi]
  case high =>
    have hnotLow : ¬ i < 17 := by omega
    simp only [generatorShift_eq, BitVec.getLsbD_shiftLeft, hi, hnotLow, decide_true, decide_false, Bool.not_false,
      Bool.true_and]

/-! ### The transition (R103, R108, R109) -/

/-- The transition with the lanes of the old state in order (R103). -/
theorem generatorNext_closedForm (a b c d : Word) :
    generatorNext ⟨a, b, c, d⟩ =
      ⟨a ^^^ b ^^^ d, a ^^^ b ^^^ c, a ^^^ c ^^^ (b <<< 17), rotl (b ^^^ d) 45⟩ := by
  have h0 : a ^^^ (d ^^^ b) = a ^^^ b ^^^ d := by ac_rfl
  have h1 : b ^^^ (c ^^^ a) = a ^^^ b ^^^ c := by ac_rfl
  rw [generatorNext_mk, h0, h1, BitVec.xor_comm c a, BitVec.xor_comm d b]

/-- Each lane of the new state is a XOR of shifted and rotated old lanes, so the transition is linear (R103). -/
theorem generatorNext_xor (S T : Lanes) : generatorNext (S.xor T) = (generatorNext S).xor (generatorNext T) := by
  obtain ⟨a, b, c, d⟩ := S
  obtain ⟨a', b', c', d'⟩ := T
  simp only [Lanes.xor, generatorNext_closedForm, Lanes.mk.injEq]
  refine ⟨?_, ?_, ?_, ?_⟩
  · rw [xor_xor_xor_swap a, xor_xor_xor_swap (a ^^^ b)]
  · rw [xor_xor_xor_swap a, xor_xor_xor_swap (a ^^^ b)]
  · rw [BitVec.shiftLeft_xor_distrib, xor_xor_xor_swap a, xor_xor_xor_swap (a ^^^ c)]
  · rw [xor_xor_xor_swap b, rotl_xor_distrib _ _ (by decide)]

/-- The lanes of a fixed point vanish one after another: lane 0 keeps its value only if lanes 1 and 3 are equal, then
lane 3 is rotated 0, then lane 1 is kept only if lanes 0 and 2 are equal, then lane 2 is 0 (R108). -/
theorem generatorNext_eq_self_iff (S : Lanes) : generatorNext S = S ↔ S = Lanes.zero := by
  refine ⟨fun h => ?_, fun h => by rw [h]; decide⟩
  obtain ⟨a, b, c, d⟩ := S
  rw [generatorNext_mk, Lanes.mk.injEq] at h
  obtain ⟨h0, h1, h2, h3⟩ := h
  have hdb : d ^^^ b = 0 := xor_left_eq_self_iff.1 h0
  have hca : c ^^^ a = 0 := xor_left_eq_self_iff.1 h1
  have hd : d = 0 := by rw [← h3, hdb, rotl_zero]
  have hb : b = 0 := by rw [← BitVec.xor_eq_zero_iff.1 hdb, hd]
  have hc : c = 0 := by rw [← h2, hca, hb]; decide
  have ha : a = 0 := by rw [← BitVec.xor_eq_zero_iff.1 hca, hc]
  rw [ha, hb, hc, hd, Lanes.zero]

theorem generatorNext_injective : Function.Injective generatorNext :=
  Function.LeftInverse.injective generatorPrevious_generatorNext

/-- Four words have finitely many values. -/
theorem finite_lanes : Finite Lanes := by
  refine Finite.of_injective (fun S : Lanes => (S.s0, S.s1, S.s2, S.s3)) fun S T h => ?_
  simp only [Prod.mk.injEq] at h
  obtain ⟨h0, h1, h2, h3⟩ := h
  exact Lanes.ext_lanes h0 h1 h2 h3

theorem generatorNext_bijective : Function.Bijective generatorNext :=
  have := finite_lanes
  Finite.injective_iff_bijective.1 generatorNext_injective

/-- The left inverse of a bijection is its right inverse too. -/
theorem generatorNext_generatorPrevious (S : Lanes) : generatorNext (generatorPrevious S) = S :=
  Function.LeftInverse.rightInverse_of_surjective generatorPrevious_generatorNext generatorNext_bijective.surjective S

/-- No point of a stream is all-zero: it begins at fresh lanes, and no step leads there (R91, R109). -/
theorem streamLanes_ne_zero (seed : Word) (k : Nat) : streamLanes seed k ≠ Lanes.zero := by
  induction k with
  | zero => exact seedLanes_ne_zero seed Lanes.zero
  | succ k ih => exact generatorNext_ne_zero ih

/-- Settles O32: the rule's inverse is a left inverse, hence, the state being finite, an inverse on both sides. -/
theorem transitionIsABijection : Obligations.TransitionIsABijection :=
  ⟨generatorPrevious_generatorNext, generatorNext_generatorPrevious, generatorNext_bijective,
    fun _ => generatorNext_ne_zero, streamLanes_ne_zero⟩

/-! ### The step commands (R101 to R110) -/

theorem advanceStream_lanes {form : Word → Word} {s t : State} (h : advanceStream form s = .next t) :
    t.lanes = generatorNext s.lanes := by
  rw [advanceStream_eq] at h
  cases h
  rfl

/-- Settles O25: on seeded lanes `NEXT_U64` applies the transition, whose lanes are the eight steps' values substituted
into each other. -/
theorem nextU64RunsTheEightSteps : Obligations.NextU64RunsTheEightSteps := by
  refine ⟨?steps, by decide, by decide, by decide⟩
  rintro s _ _ _ _ _ _ _ _ hs rfl rfl rfl rfl rfl rfl rfl rfl
  have hlanes := generatorNext_mk s.lanes.s0 s.lanes.s1 s.lanes.s2 s.lanes.s3
  rw [exec_nextU64_of_seeded hs, generatorOutput_eq, hlanes]

/-- Settles O26: the closed form in what `NEXT_U64` does, `generatorNext_xor`, and a carry out of bit 0, which a XOR of
outputs does not have. -/
theorem transitionClosedForm : Obligations.TransitionClosedForm := by
  refine ⟨fun s a b c d hs hlanes => ?closedForm, generatorNext_xor, ⟨1, 0, 0, 0⟩, ⟨0, 0, 0, 1⟩, by decide⟩
  rw [exec_nextU64_of_seeded hs, hlanes, generatorNext_closedForm, generatorOutput_eq]

/-- The first output of a seed, from lanes 0 and 3 of `INIT` (R89, R102). -/
theorem generatorOutput_seedLanes (seed : Word) (old : Lanes) :
    generatorOutput (seedLanes seed old) =
      mix (seed + 0x9E3779B97F4A7C15) + mix (seed + 4 * 0x9E3779B97F4A7C15) := by
  have hgamma : (4 * 0x9E3779B97F4A7C15 : Word) = 0x78DDE6E5FD29F054 := by decide
  rw [seedLanes_eq, generatorOutput_eq, hgamma]

/-- Settles O27: the response is the output of the lanes before the step, and after `INIT` those are fresh. -/
theorem outputComesFromTheOldState : Obligations.OutputComesFromTheOldState := by
  refine ⟨fun _ _ => advanceStream_responses, fun S T h0 h3 => ?twoLanes,
    fun seed s => ⟨_, _, exec_init seed s, exec_nextU64_eq _, ?first⟩⟩
  case twoLanes => rw [generatorOutput_eq, generatorOutput_eq, h0, h3]
  case first => exact congrArg (fun r => s.responses ++ [r]) (generatorOutput_seedLanes seed s.lanes)

/-- Settles O29: the new lanes and the word sent are functions of the old lanes. -/
theorem stepReadsOnlyTheLanes : Obligations.StepReadsOnlyTheLanes := by
  intro s s' t t' hlanes ht ht'
  refine ⟨?_, generatorOutput s.lanes, advanceStream_responses ht, ?_⟩
  · rw [advanceStream_lanes ht, advanceStream_lanes ht', hlanes]
  · rw [advanceStream_responses ht', hlanes, integerResponse]

/-- Settles O31: all-zero is the one fixed point, and a step that changed no lane would have started from one. -/
theorem allZeroIsTheOnlyFixedPoint : Obligations.AllZeroIsTheOnlyFixedPoint := by
  refine ⟨fun s hs hzero => ?zero, generatorNext_eq_self_iff, fun s t hstep hne => ?others⟩
  case zero =>
    have hout : generatorOutput Lanes.zero = 0 := by decide
    rw [exec_nextU64_of_seeded hs, hzero, (generatorNext_eq_self_iff Lanes.zero).2 rfl, hout, ← hzero]
  case others =>
    by_contra hsame
    simp only [not_exists, not_not] at hsame
    have hlanes : t.lanes = s.lanes := Lanes.ext_lanes (hsame 0) (hsame 1) (hsame 2) (hsame 3)
    exact hne ((generatorNext_eq_self_iff s.lanes).1 ((advanceStream_lanes hstep).symm.trans hlanes))

/-- Settles O33: the transition and the output at the two states of the example. -/
theorem consecutiveOutputsMayBeEqual : Obligations.ConsecutiveOutputsMayBeEqual := by
  intro s hs hlanes
  have hfirst : generatorNext ⟨5, 0, 7, 0⟩ = ⟨5, 2, 2, 0⟩ := by decide
  have hsecond : generatorNext ⟨5, 2, 2, 0⟩ = ⟨7, 5, 0x40007, 0x0000400000000000⟩ := by decide
  refine ⟨_, _, exec_nextU64_eq s, ?_, exec_nextU64_eq _, ?_, ?_⟩
  · simp only [hlanes, hfirst]
  · simp only [hlanes, hfirst, hsecond]
  · simp only [hlanes, hfirst, generatorOutput_eq, List.append_assoc]
    rfl

/-- A step on unseeded lanes runs all the same and leaves the mark of the model's refusal (R107). -/
theorem advanceStream_of_unseeded (form : Word → Word) {s : State} {a b c d : Word} (hs : s.seeded = false)
    (hlanes : s.lanes = ⟨a, b, c, d⟩) :
    ∃ t, advanceStream form s = .next t ∧ t.responses = s.responses ++ [form (a + d)] ∧ t.seeded = false ∧
      t.steps = s.steps + 1 ∧ t.inputs = s.inputs ∧ t.refusedByModel = true ∧
      t.lanes = ⟨a ^^^ b ^^^ d, a ^^^ b ^^^ c, a ^^^ c ^^^ (b <<< 17), rotl (b ^^^ d) 45⟩ := by
  refine ⟨_, advanceStream_eq form s, ?_, hs, rfl, rfl, by simp [hs], ?_⟩
  · simp only [hlanes, generatorOutput_eq]
  · simp only [hlanes, generatorNext_closedForm]

end Sys2Proof.Machine

namespace Sys2Proof.Safety

open Sys2Proof.Machine

/-- A step command presented right after reset: the model refuses it, and the core answers from whatever the lanes hold
(R107). -/
theorem stepCommand_at_reset {w : CommandWord} {kind : StepKind} (hd : decode w = .command kind.instr)
    (rest : List HostInput) :
    modelStep { State.reset with inputs := .command w :: rest } = .refused .unseededStep ∧
      ∃ t, step { State.reset with inputs := .command w :: rest } = .next t ∧
        t.responses = [kind.response (State.reset.lanes.s0 + State.reset.lanes.s3)] := by
  have hstep := step_command (s := { State.reset with inputs := .command w :: rest }) rfl hd
  rw [exec_stepKind, advanceStream_eq] at hstep
  exact ⟨modelStep_of_unseeded_step rfl hd rfl, _, hstep, rfl⟩

/-- Settles O30: both step commands on any unseeded lanes, and as the first command after reset. -/
theorem stepBeforeInitRunsOnTheLanes : Obligations.StepBeforeInitRunsOnTheLanes :=
  ⟨fun _ _ _ _ _ hs hlanes =>
    ⟨advanceStream_of_unseeded integerResponse hs hlanes, advanceStream_of_unseeded toDoubleBits hs hlanes⟩,
  fun arg rest =>
    ⟨stepCommand_at_reset (kind := .integer) (decode_commandWord_one arg) rest,
      stepCommand_at_reset (kind := .double) (decode_commandWord_two arg) rest⟩⟩

end Sys2Proof.Safety
end

section
namespace Sys2Proof.Machine

/-! ### The fields and the real number of a binary64 pattern (R122) -/

theorem doubleSign_eq_false_iff {d : Word} : doubleSign d = false ↔ d.toNat < 2 ^ 63 := by
  rw [doubleSign, ← BitVec.msb_eq_getLsbD_last, BitVec.msb_eq_decide, decide_eq_false_iff_not, Nat.not_le]

theorem doubleExponent_eq (d : Word) : doubleExponent d = d.toNat / 2 ^ 52 % 2 ^ 11 := by
  rw [doubleExponent, BitVec.extractLsb'_toNat, Nat.shiftRight_eq_div_pow]

theorem doubleFraction_eq (d : Word) : doubleFraction d = d.toNat % 2 ^ 52 := by
  rw [doubleFraction, BitVec.extractLsb'_toNat, Nat.shiftRight_zero]

/-- A pattern put together as in R122, with sign 0, has the exponent and the fraction it was made of. -/
theorem doubleFields_of_toNat {d : Word} {E F : Nat} (h : d.toNat = E * 2 ^ 52 + F) (hE : E < 2 ^ 11)
    (hF : F < 2 ^ 52) : doubleSign d = false ∧ doubleExponent d = E ∧ doubleFraction d = F := by
  rw [doubleSign_eq_false_iff, doubleExponent_eq, doubleFraction_eq, h]
  omega

/-- A positive normal number, its leading one put back in front of the fraction. -/
theorem doubleValue_of_normal {d : Word} {E F : Nat} (hsign : doubleSign d = false) (hexp : doubleExponent d = E)
    (hfrac : doubleFraction d = F) (hpos : E ≠ 0) (hfinite : E ≠ 2047) :
    doubleValue d = some (((2 ^ 52 + F : Nat) : ℚ) * 2 ^ ((E : ℤ) - 1075)) := by
  simp only [doubleValue, hsign, hexp, hfrac, hpos, hfinite, if_false, Bool.false_eq_true, one_mul, Nat.cast_add,
    Nat.cast_pow, Nat.cast_ofNat]

/-- Exponent 0 and fraction 0 denote zero, whatever the sign. -/
theorem doubleValue_of_zero {d : Word} (hexp : doubleExponent d = 0) (hfrac : doubleFraction d = 0) :
    doubleValue d = some 0 := by
  simp [doubleValue, hexp, hfrac]

theorem doubleValue_zero : doubleValue 0 = some 0 := doubleValue_of_zero (by decide) (by decide)

/-! ### The mapper on the numbers with one highest set bit (R122) -/

theorem mantissa_eq_iff {x : Word} {k : Nat} : mantissa x = k ↔ 2048 * k ≤ x.toNat ∧ x.toNat < 2048 * (k + 1) := by
  rw [mantissa_eq_div]
  omega

theorem exists_highestSetBit {x : Word} (h : mantissa x ≠ 0) :
    ∃ p, 2 ^ p ≤ mantissa x ∧ mantissa x < 2 ^ (p + 1) :=
  ⟨_, Nat.log2_self_le h, Nat.lt_log2_self⟩

section
variable {x : Word} {p : Nat} (hlo : 2 ^ p ≤ mantissa x) (hhi : mantissa x < 2 ^ (p + 1))
include hlo

theorem mantissa_ne_zero_of_pow_le : mantissa x ≠ 0 := by
  have hpos := Nat.two_pow_pos p
  omega

theorem highestSetBit_le : p ≤ 52 :=
  Nat.lt_succ_iff.1 ((Nat.pow_lt_pow_iff_right (by decide)).1 (hlo.trans_lt (mantissa_lt x)))

include hhi

theorem highestSetBit_eq : (mantissa x).log2 = p :=
  (Nat.log2_eq_iff (mantissa_ne_zero_of_pow_le hlo)).2 ⟨hlo, hhi⟩

/-- Moved up by `52 - p` the leading one stands in bit 52. -/
theorem shiftedMantissa_bounds : 2 ^ 52 ≤ mantissa x * 2 ^ (52 - p) ∧ mantissa x * 2 ^ (52 - p) < 2 ^ 53 := by
  have hp := highestSetBit_le hlo
  have hbottom : 2 ^ 52 = 2 ^ p * 2 ^ (52 - p) := by rw [← pow_add, Nat.add_sub_cancel' hp]
  have htop : 2 ^ 53 = 2 ^ (p + 1) * 2 ^ (52 - p) := by rw [pow_succ 2 p, mul_right_comm, ← hbottom, ← pow_succ]
  rw [hbottom, htop]
  exact ⟨Nat.mul_le_mul_right _ hlo, Nat.mul_lt_mul_of_pos_right hhi (Nat.two_pow_pos _)⟩

theorem shiftedMantissa_mod : mantissa x * 2 ^ (52 - p) % 2 ^ 52 = mantissa x * 2 ^ (52 - p) - 2 ^ 52 := by
  obtain ⟨hge, hlt⟩ := shiftedMantissa_bounds hlo hhi
  omega

theorem toDoubleBits_toNat_of_highestSetBit :
    (toDoubleBits x).toNat = (970 + p) * 2 ^ 52 + mantissa x * 2 ^ (52 - p) % 2 ^ 52 := by
  rw [toDoubleBits_toNat (mantissa_ne_zero_of_pow_le hlo), highestSetBit_eq hlo hhi]

theorem doubleFields_toDoubleBits :
    doubleSign (toDoubleBits x) = false ∧ doubleExponent (toDoubleBits x) = 970 + p ∧
      doubleFraction (toDoubleBits x) = mantissa x * 2 ^ (52 - p) - 2 ^ 52 := by
  have hp := highestSetBit_le hlo
  rw [← shiftedMantissa_mod hlo hhi]
  exact doubleFields_of_toNat (toDoubleBits_toNat_of_highestSetBit hlo hhi) (by omega) (Nat.mod_lt _ (by decide))

/-- The patterns of one highest set bit fill one step of the exponent. -/
theorem toDoubleBits_toNat_bounds :
    (970 + p) * 2 ^ 52 ≤ (toDoubleBits x).toNat ∧ (toDoubleBits x).toNat < (971 + p) * 2 ^ 52 := by
  have hF := Nat.mod_lt (mantissa x * 2 ^ (52 - p)) (show 0 < 2 ^ 52 by decide)
  rw [toDoubleBits_toNat_of_highestSetBit hlo hhi]
  omega

/-- The pattern's exponent undoes the shift of `m` and scales by `2^-53` (R120, R122). -/
theorem doubleValue_toDoubleBits_of_highestSetBit : doubleValue (toDoubleBits x) = some (toDouble x) := by
  have hp := highestSetBit_le hlo
  obtain ⟨hsign, hexp, hfrac⟩ := doubleFields_toDoubleBits hlo hhi
  have hnumber : 2 ^ 52 + (mantissa x * 2 ^ (52 - p) - 2 ^ 52) = mantissa x * 2 ^ (52 - p) :=
    Nat.add_sub_cancel' (shiftedMantissa_bounds hlo hhi).1
  have hscale : (2 : ℚ) ^ (52 - p) * 2 ^ (((970 + p : Nat) : ℤ) - 1075) = (2 ^ 53)⁻¹ := by
    have hexponent : ((52 - p : Nat) : ℤ) + (((970 + p : Nat) : ℤ) - 1075) = -(53 : Nat) := by omega
    rw [← zpow_natCast, ← zpow_add₀ two_ne_zero, hexponent, zpow_neg, zpow_natCast]
  rw [doubleValue_of_normal hsign hexp hfrac (by omega) (by omega), hnumber, Nat.cast_mul, Nat.cast_pow, Nat.cast_ofNat,
    mul_assoc, hscale, toDouble, Config.sig, div_eq_mul_inv]

end

/-! ### The mapper on every input (R120 to R124) -/

/-- The pattern denotes the real number of R120. -/
theorem doubleValue_toDoubleBits (x : Word) : doubleValue (toDoubleBits x) = some (toDouble x) := by
  by_cases hm : mantissa x = 0
  · rw [toDoubleBits_of_mantissa_zero hm, doubleValue_zero, toDouble, hm, Nat.cast_zero, zero_div]
  · obtain ⟨p, hlo, hhi⟩ := exists_highestSetBit hm
    exact doubleValue_toDoubleBits_of_highestSetBit hlo hhi

/-- Settles O34: the procedure with the highest set bit given by its bounds, and the real number of its pattern. -/
theorem toDoubleIsExact : Obligations.ToDoubleIsExact := by
  have htoDouble (x : Word) : toDouble x = ((x.toNat / 2048 : Nat) : ℚ) / 2 ^ 53 := by
    rw [toDouble, mantissa_eq_div, Config.sig]
  refine ⟨fun x => ?value, fun x => ?real, fun x h => ?zero, ?procedure, by decide⟩
  case value => exact (doubleValue_toDoubleBits x).trans (congrArg some (htoDouble x))
  case real => rw [htoDouble]; norm_num
  case zero => exact toDoubleBits_of_mantissa_zero (congrArg BitVec.toNat h)
  case procedure =>
    rintro x _ p rfl hlo hhi
    exact ⟨highestSetBit_le hlo, toDoubleBits_toNat_of_highestSetBit hlo hhi, doubleFields_toDoubleBits hlo hhi⟩

theorem toDouble_le_iff {x y : Word} : toDouble x ≤ toDouble y ↔ mantissa x ≤ mantissa y := by
  rw [toDouble, toDouble, div_le_div_iff_of_pos_right (by positivity), Nat.cast_le]

theorem toDouble_eq_div_iff {x : Word} {k : Nat} : toDouble x = (k : ℚ) / 2 ^ 53 ↔ mantissa x = k := by
  rw [toDouble, Config.sig, div_left_inj' (by positivity), Nat.cast_inj]

/-- The pattern is a function of `m`, and its real number gives `m` back (R121, R124). -/
theorem toDoubleBits_eq_iff {x y : Word} : toDoubleBits x = toDoubleBits y ↔ mantissa x = mantissa y := by
  refine ⟨fun h => toDouble_eq_div_iff.1 (Option.some.inj ?_), fun h => by rw [toDoubleBits, toDoubleBits, h]⟩
  rw [← doubleValue_toDoubleBits, h, doubleValue_toDoubleBits, toDouble, Config.sig]

/-- Settles O35: each clause is about two inputs with the same `m`. -/
theorem mapperDropsTheLowBits : Obligations.MapperDropsTheLowBits := by
  refine ⟨fun x y h => toDoubleBits_eq_iff.2 (congrArg BitVec.toNat h), fun x => toDoubleBits_eq_iff.2 ?cleared,
    fun x h => toDoubleBits_of_mantissa_zero (mantissa_eq_iff.2 (by omega))⟩
  case cleared =>
    have hx := x.isLt
    simp only [mantissa_eq_div, BitVec.toNat_shiftLeft, BitVec.toNat_ushiftRight, Nat.shiftLeft_eq,
      Nat.shiftRight_eq_div_pow]
    omega

/-- The pattern grows with `m`: with the same highest set bit by its fraction, else by its exponent. -/
theorem toDoubleBits_toNat_mono {x y : Word} (h : mantissa x ≤ mantissa y) :
    (toDoubleBits x).toNat ≤ (toDoubleBits y).toNat := by
  by_cases hm : mantissa x = 0
  · rw [toDoubleBits_of_mantissa_zero hm]
    exact Nat.zero_le _
  obtain ⟨p, hlo, hhi⟩ := exists_highestSetBit hm
  obtain ⟨q, hlo', hhi'⟩ := exists_highestSetBit (x := y) (by omega)
  have hpq : p ≤ q := Nat.lt_succ_iff.1 ((Nat.pow_lt_pow_iff_right (by decide)).1 ((hlo.trans h).trans_lt hhi'))
  obtain rfl | hlt := hpq.eq_or_lt
  · rw [toDoubleBits_toNat_of_highestSetBit hlo hhi, toDoubleBits_toNat_of_highestSetBit hlo' hhi',
      shiftedMantissa_mod hlo hhi, shiftedMantissa_mod hlo' hhi']
    gcongr
  · have hx := (toDoubleBits_toNat_bounds hlo hhi).2
    have hy := (toDoubleBits_toNat_bounds hlo' hhi').1
    omega

theorem toDouble_nonneg (x : Word) : 0 ≤ toDouble x := by
  rw [toDouble]
  positivity

theorem toDouble_lt_one (x : Word) : toDouble x < 1 := by
  rw [toDouble, Config.sig, div_lt_one (by positivity)]
  exact_mod_cast mantissa_lt x

/-- No pattern exceeds that of the largest input (R123). -/
theorem toDoubleBits_toNat_le (x : Word) : (toDoubleBits x).toNat ≤ 0x3FEFFFFFFFFFFFFF := by
  have hlargest : mantissa x ≤ mantissa (BitVec.allOnes 64) := by
    have hx := mantissa_lt x
    have hmax : mantissa (BitVec.allOnes 64) = 2 ^ 53 - 1 := by decide
    omega
  have hpattern : (toDoubleBits (BitVec.allOnes 64)).toNat = 0x3FEFFFFFFFFFFFFF := by decide
  exact hpattern ▸ toDoubleBits_toNat_mono hlargest

/-- A known pattern is given by exactly the inputs with the same `m` as one input that gives it. -/
theorem toDoubleBits_eq_iff_of_eq {x y d : Word} (h : toDoubleBits y = d) :
    toDoubleBits x = d ↔ mantissa x = mantissa y :=
  h ▸ toDoubleBits_eq_iff

theorem toDoubleBits_eq_zero_iff {x : Word} : toDoubleBits x = 0 ↔ mantissa x = 0 :=
  toDoubleBits_eq_iff_of_eq (y := 0) (by decide)

/-- Settles O36: the value is that of R120, and each named pattern is that of a known `m`. -/
theorem mapperRange : Obligations.MapperRange := by
  refine ⟨fun x => ⟨toDouble x, doubleValue_toDoubleBits x, toDouble_nonneg x, toDouble_lt_one x⟩, fun x => ?zero,
    fun x => ?smallest, fun x => ?largest, toDoubleBits_toNat_le, fun x => ?one⟩
  case zero =>
    rw [toDoubleBits_eq_zero_iff, mantissa_eq_iff]
    omega
  case smallest =>
    have hm : mantissa 0x800 = 1 := by decide
    rw [toDoubleBits_eq_iff_of_eq (y := 0x800) (by decide), hm, mantissa_eq_iff]
    omega
  case largest =>
    have hx := x.isLt
    have hm : mantissa 0xFFFFFFFFFFFFF800 = 2 ^ 53 - 1 := by decide
    rw [toDoubleBits_eq_iff_of_eq (y := 0xFFFFFFFFFFFFF800) (by decide), hm, mantissa_eq_iff]
    omega
  case one =>
    intro h
    exact absurd (h ▸ toDoubleBits_toNat_le x) (by decide)

/-- The mapper's two results: `+0.0`, or a positive normal number with one of 53 exponents (R124). -/
theorem toDoubleBits_zero_or_normal (x : Word) :
    toDoubleBits x = 0 ∨
      doubleSign (toDoubleBits x) = false ∧ ∃ p ≤ 52, doubleExponent (toDoubleBits x) = 970 + p := by
  by_cases hm : mantissa x = 0
  · exact .inl (toDoubleBits_of_mantissa_zero hm)
  · obtain ⟨p, hlo, hhi⟩ := exists_highestSetBit hm
    obtain ⟨hsign, hexp, -⟩ := doubleFields_toDoubleBits hlo hhi
    exact .inr ⟨hsign, p, highestSetBit_le hlo, hexp⟩

/-- Settles O37: the two results of the mapper for its fields, and `m` for its real numbers and its order. -/
theorem mapperNeverLeavesNormalNumbers : Obligations.MapperNeverLeavesNormalNumbers := by
  refine ⟨fun x => ?finite, fun x h => ?noSubnormal, fun x h => ?normal, fun x => ?multiple, fun k _ x => ?fibre,
    fun x y h => ?monotone⟩
  case finite =>
    obtain hzero | ⟨hsign, p, hp, hexp⟩ := toDoubleBits_zero_or_normal x
    · rw [hzero]
      decide
    · exact ⟨hsign, by omega⟩
  case noSubnormal =>
    obtain hzero | ⟨-, p, -, hexp⟩ := toDoubleBits_zero_or_normal x
    · exact hzero
    · omega
  case normal =>
    obtain hzero | ⟨-, p, -, hexp⟩ := toDoubleBits_zero_or_normal x
    · exact absurd hzero h
    · omega
  case multiple => exact ⟨mantissa x, mantissa_lt x, doubleValue_toDoubleBits x⟩
  case fibre => rw [doubleValue_toDoubleBits, Option.some_inj, toDouble_eq_div_iff, mantissa_eq_iff]
  case monotone =>
    have hm : mantissa x ≤ mantissa y := by
      rw [mantissa_eq_div, mantissa_eq_div]
      exact Nat.div_le_div_right h
    exact ⟨toDouble_le_iff.2 hm, toDoubleBits_toNat_mono hm⟩

/-! ### The command (R125) -/

/-- From the same state `NEXT_DOUBLE` does what `NEXT_U64` does, but for the form of the word it sends. -/
theorem exec_nextDouble_of_exec_nextU64 {s t : State} (h : exec .nextU64 s = .next t) :
    exec .nextDouble s =
      .next { t with responses := s.responses ++ [toDoubleBits (generatorOutput s.lanes)] } := by
  rw [exec_nextU64_eq] at h
  cases h
  exact exec_nextDouble_eq s

/-- Settles O38: the closed form of the transition, the one step of both commands, and the fresh lanes of seed 0. -/
theorem nextDoubleComposesStepAndMapper : Obligations.NextDoubleComposesStepAndMapper := by
  refine ⟨fun s a b c d hs hlanes => ?closedForm,
    fun s t h => ⟨_, advanceStream_responses h, exec_nextDouble_of_exec_nextU64 h⟩,
    fun s t h => ⟨_, exec_nextDouble_eq t, ?_⟩⟩
  case closedForm => rw [exec_nextDouble_of_seeded hs, hlanes, generatorNext_closedForm, generatorOutput_eq]
  obtain ⟨-, hresp, -⟩ := exec_init_frame h
  have hlanes := (exec_init_lanes h).trans (seedLanes_zero s.lanes)
  have hresult : generatorOutput t.lanes = 0xDAAC60E1ED6A4F9B := by rw [hlanes]; decide
  have hdouble : toDoubleBits 0xDAAC60E1ED6A4F9B = 0x3FEB558C1C3DAD49 := by decide
  have hnext : generatorNext t.lanes =
      ⟨0x74D38EFBA8E829B7, 0x8A9C6B4B5AADED14, 0xD831B65330FC88E0, 0xBC8312DE64D85A7E⟩ := by rw [hlanes]; decide
  rw [hresp, hresult, hdouble]
  exact ⟨rfl, hnext⟩

end Sys2Proof.Machine
end

section
namespace Sys2Proof.Machine

/-! ### The stream of a seed (R140 to R142) -/

/-- The stream begins at what `INIT` leaves, whatever lanes it overwrites (R140). -/
theorem seedLanes_eq_streamLanes_zero (seed : Word) (old : Lanes) : seedLanes seed old = streamLanes seed 0 :=
  seedLanes_ignores_old seed old Lanes.zero

theorem generatorOutput_streamLanes (seed : Word) (k : Nat) :
    generatorOutput (streamLanes seed k) = streamOut seed k := rfl

theorem streamLanes_zero_s0 (seed : Word) : (streamLanes seed 0).s0 = mix (stageA seed) := by
  rw [← seedLanes_eq_streamLanes_zero seed Lanes.zero, seedLanes_unrolled]

/-- A step word of any spelling decodes to its step command (R62). -/
@[simp] theorem decode_stepWord (kind : StepKind) (arg : Word) :
    decode (commandWord kind.instr.opcode arg) = .command kind.instr := by
  cases kind with
  | integer => exact decode_commandWord_one arg
  | double => exact decode_commandWord_two arg

/-- Settles O23: lane 0 is `mix` of the seed advanced by stage A, and both are injective (R89, R90). -/
theorem seedsGiveDifferentStates : Obligations.SeedsGiveDifferentStates := by
  intro a b h
  rw [streamLanes_zero_s0, streamLanes_zero_s0] at h
  exact stageA_injective (mix_injective h)

/-- Settles O40: both commands apply the transition, and only the all-zero state is a fixed point of it. -/
theorem eachStepAdvancesTheStream : Obligations.EachStepAdvancesTheStream := by
  intro s t h
  have hlanes : t.lanes = generatorNext s.lanes := h.elim advanceStream_lanes advanceStream_lanes
  refine ⟨hlanes, fun hne hsame => hne ?_⟩
  exact (generatorNext_eq_self_iff s.lanes).1 (hlanes.symm.trans hsame)

/-- Settles O39: the response is a pattern of the mapper, whose value lies in the unit interval. -/
theorem nextDoubleIsInTheUnitInterval : Obligations.NextDoubleIsInTheUnitInterval := fun s =>
  ⟨_, _, toDouble (generatorOutput s.lanes), exec_nextDouble_eq s, rfl, doubleValue_toDoubleBits _, toDouble_nonneg _,
    toDouble_lt_one _⟩

/-- Settles O41: after `INIT 1`, whatever the state, `NEXT_U64` responds with the stream's first output; the outputs
themselves are computed. -/
theorem knownFirstOutputs : Obligations.KnownFirstOutputs := by
  have hfirst : streamOut 1 0 = 0x02CBB47D774525CC := by decide
  refine ⟨fun s => ⟨_, _, exec_init 1 s, exec_nextU64_eq _, ?_⟩, by decide⟩
  simp only [seedLanes_eq_streamLanes_zero, generatorOutput_streamLanes, hfirst]

end Sys2Proof.Machine

namespace Sys2Proof.Safety

open Sys2Proof.Machine

/-- Settles O44, by the cases of a step: `INIT` begins a stream, a step command goes one point further, and a reset
leaves the core unseeded. -/
theorem everyStepKeepsTheLanesOnAStream : Obligations.EveryStepKeepsTheLanesOnAStream := by
  intro s t hs hstep
  obtain ⟨-, rfl⟩ | ⟨rest, seed, rfl⟩ | ⟨rest, r, rfl⟩ | ⟨rest, rfl⟩ | ⟨rest, rfl⟩ := step_next_cases hstep
  case inl => exact hs
  case inr.inl => exact fun _ => ⟨seed, seedLanes_eq_streamLanes_zero seed s.lanes⟩
  case inr.inr.inl =>
    intro hseeded
    obtain ⟨seed, hlanes⟩ := hs hseeded
    exact ⟨seed, congrArg generatorNext hlanes⟩
  case inr.inr.inr.inl => exact hs
  case inr.inr.inr.inr => exact onStream_of_unseeded rfl

/-! ### Runs of step commands (R148, R149) -/

/-- The inputs that present step commands, each of a kind and with an `arg` of its own. -/
def stepInputs (steps : List (StepKind × Word)) : List HostInput :=
  steps.map fun step => .command (commandWord step.1.instr.opcode step.2)

/-- The state on the stream of `seed` after `k` step commands and the given responses, the rest as in `s`. -/
def streamState (s : State) (seed : Word) (k : Nat) (inputs : List HostInput) (responses : List Word) : State :=
  { s with lanes := streamLanes seed k, seeded := true, steps := k, inputs := inputs, responses := responses }

/-- `INIT seed` puts the core at the beginning of the stream of `seed`, whatever its state. -/
theorem step_init {s : State} {seed : Word} {rest : List HostInput}
    (h : s.inputs = .command (encode (.init seed)) :: rest) :
    step s = .next (streamState s seed 0 rest s.responses) := by
  rw [step_command h (decode_encode _), exec_init, seedLanes_eq_streamLanes_zero]
  rfl

/-- A step command of any kind and spelling moves the core one point further along its stream. -/
theorem step_stepCommand_streamState (s : State) (seed : Word) (k : Nat) (kind : StepKind) (arg : Word)
    (rest : List HostInput) (responses : List Word) :
    step (streamState s seed k (.command (commandWord kind.instr.opcode arg) :: rest) responses) =
      .next (streamState s seed (k + 1) rest (responses ++ [kind.response (streamOut seed k)])) := by
  rw [step_command rfl (decode_stepWord kind arg), exec_stepKind, advanceStream_of_seeded _ rfl]
  rfl

/-- Any number of step commands, by induction over them: each response goes behind those sent before. -/
theorem runSteps_streamState (s : State) (seed : Word) (k : Nat) (steps : List (StepKind × Word))
    (later : List HostInput) (responses : List Word) :
    runSteps steps.length (streamState s seed k (stepInputs steps ++ later) responses) =
      .next (streamState s seed (k + steps.length) later
        (responses ++ streamResponses seed k (steps.map Prod.fst))) := by
  induction steps generalizing k responses with
  | nil => simp [stepInputs, streamResponses]
  | cons head rest ih =>
    obtain ⟨kind, arg⟩ := head
    have hstep := step_stepCommand_streamState s seed k kind arg (stepInputs rest ++ later) responses
    have hlength : k + 1 + rest.length = k + (rest.length + 1) := by omega
    calc runSteps (rest.length + 1) (streamState s seed k (stepInputs ((kind, arg) :: rest) ++ later) responses)
        = runSteps rest.length (streamState s seed (k + 1) (stepInputs rest ++ later)
            (responses ++ [kind.response (streamOut seed k)])) := runWith_of_next _ hstep
      _ = .next (streamState s seed (k + (rest.length + 1)) later
            (responses ++ kind.response (streamOut seed k) :: streamResponses seed (k + 1) (rest.map Prod.fst))) := by
        rw [ih, hlength, List.append_assoc, List.singleton_append]

/-- Settles O42: `INIT` puts the core at the beginning of the seed's stream, and `runSteps_streamState` follows it. -/
theorem oneStreamWhateverTheMix : Obligations.OneStreamWhateverTheMix := by
  intro s seed steps later hin
  have hrun := runSteps_streamState s seed 0 steps later s.responses
  rw [Nat.zero_add] at hrun
  exact (runWith_of_next steps.length (step_init hin)).trans hrun

end Sys2Proof.Safety
end

section
namespace Sys2Proof.Machine

/-! ### The outcomes of a step (R65, R105, R160) -/

/-- The host presents a command word next, and the word's opcode satisfies `P`. -/
def State.Presents (s : State) (P : BitVec 2 → Prop) : Prop :=
  ∃ w rest, s.inputs = .command w :: rest ∧ P (opField w)

section
variable {s : State} {P : BitVec 2 → Prop}

theorem State.presents_command {w : CommandWord} {rest : List HostInput} (h : s.inputs = .command w :: rest) :
    s.Presents P ↔ P (opField w) := by
  simp [State.Presents, h]

theorem State.not_presents (h : ∀ w rest, s.inputs ≠ .command w :: rest) : ¬ s.Presents P :=
  fun ⟨w, rest, hin, _⟩ => h w rest hin

theorem State.not_presents_iff :
    ¬ s.Presents P ↔ ∀ w rest, s.inputs = .command w :: rest → ¬ P (opField w) := by
  simp [State.Presents]

theorem step_of_presents_reserved (h : s.Presents (· = 3)) : step s = .refused .reservedCommand := by
  obtain ⟨w, rest, hin, hop⟩ := h
  exact step_reserved hin (decode_of_opField_three hop)

/-- Every host input but the reserved code is answered by a next state (R160). -/
theorem step_completes (h : ¬ s.Presents (· = 3)) : ∃ t, step s = .next t := by
  cases hin : s.inputs with
  | nil => exact ⟨_, step_idle hin⟩
  | cons head rest =>
    cases head with
    | takeResponse => exact ⟨_, step_takeResponse hin⟩
    | reset presented => exact ⟨_, step_reset hin⟩
    | command w =>
      cases hd : decode w with
      | command i =>
        rw [step_command hin hd]
        exact exec_completes i _
      | reserved arg =>
        have hop : opField w = 3 := by rw [decode_eq_reserved_iff.1 hd, opField_commandWord]
        exact absurd ((State.presents_command hin).2 hop) h

theorem step_eq_refused_iff : step s = .refused .reservedCommand ↔ s.Presents (· = 3) := by
  refine ⟨fun h => ?_, step_of_presents_reserved⟩
  by_contra hop
  obtain ⟨t, hnext⟩ := step_completes hop
  rw [hnext] at h
  cases h

theorem step_eq_next_iff : (∃ t, step s = .next t) ↔ ¬ s.Presents (· = 3) := by
  refine ⟨fun ⟨t, hnext⟩ hop => ?_, step_completes⟩
  rw [step_of_presents_reserved hop] at hnext
  cases hnext

end

/-- Settles O47: the two outcomes of a step by whether the reserved code is presented, and `exec_completes`. -/
theorem outcomesOfAStep : Obligations.OutcomesOfAStep :=
  ⟨fun _ => ⟨step_eq_refused_iff.symm, State.not_presents_iff.symm.trans step_eq_next_iff.symm⟩, exec_completes⟩

/-- The opcodes of the two step commands (R61). -/
theorem opcode_stepKind (kind : StepKind) : kind.instr.opcode = 1 ∨ kind.instr.opcode = 2 := by
  cases kind with
  | integer => exact .inl rfl
  | double => exact .inr rfl

end Sys2Proof.Machine

namespace Sys2Proof.Safety

open Sys2Proof.Machine

/-! ### The outcomes of the spec's model (R107, R176) -/

section
variable {s t : State}

/-- The ghost of the refusal after a step: it was there before, or the step ran a step command on unseeded lanes. -/
theorem refusedByModel_of_step (h : step s = .next t) :
    t.refusedByModel = true ↔
      s.refusedByModel = true ∨ s.seeded = false ∧ s.Presents fun op => op = 1 ∨ op = 2 := by
  cases hin : s.inputs with
  | nil =>
    rw [step_idle hin] at h
    cases h
    simp [State.not_presents, hin]
  | cons head rest =>
    cases head with
    | takeResponse =>
      rw [step_takeResponse hin] at h
      cases h
      simp [State.not_presents, hin]
    | reset presented =>
      rw [step_reset hin] at h
      cases h
      simp [State.not_presents, hin]
    | command w =>
      rw [State.presents_command hin]
      cases hd : decode w with
      | reserved arg =>
        rw [step_reserved hin hd] at h
        cases h
      | command i =>
        rw [step_command hin hd] at h
        rw [opField_of_decode hd]
        obtain ⟨seed, rfl⟩ | ⟨kind, rfl⟩ := instr_cases i
        · obtain ⟨-, -, -, -, -, hghost⟩ := exec_init_frame h
          simp [hghost, Instr.opcode]
        · rw [exec_stepKind] at h
          obtain ⟨-, -, -, -, -, hghost⟩ := advanceStream_frame h
          rw [and_iff_left (opcode_stepKind kind)]
          simp [hghost]

/-! What a refusal of the model says of the core's step. -/

theorem modelStep_eq_unseededStep_iff :
    modelStep s = .refused .unseededStep ↔ ∃ t, step s = .next t ∧ t.refusedByModel = true := by
  cases hstep : step s with
  | next t => simp [modelStep_of_next hstep]
  | fault f => cases f
  | refused r => simp [modelStep_of_refused hstep]

theorem modelStep_eq_ofCore_iff {r : Refusal} : modelStep s = .refused (.ofCore r) ↔ step s = .refused r := by
  cases hstep : step s with
  | next t =>
    rw [modelStep_of_next hstep]
    split <;> simp
  | fault f => cases f
  | refused r' => simp [modelStep_of_refused hstep]

/-! In a run not refused so far, by the word presented. -/

section
variable (hs : s.refusedByModel = false)
include hs

theorem refusedByModel_of_step_of_not_refused (h : step s = .next t) :
    t.refusedByModel = true ↔ s.seeded = false ∧ s.Presents fun op => op = 1 ∨ op = 2 := by
  simpa [hs] using refusedByModel_of_step h

theorem modelStep_refuses_unseeded_step_iff :
    modelStep s = .refused .unseededStep ↔ s.seeded = false ∧ s.Presents fun op => op = 1 ∨ op = 2 := by
  rw [modelStep_eq_unseededStep_iff]
  constructor
  · rintro ⟨t, hstep, hghost⟩
    exact (refusedByModel_of_step_of_not_refused hs hstep).1 hghost
  · rintro ⟨hseeded, w, rest, hin, hop⟩
    have hne : opField w ≠ 3 := by rcases hop with hop | hop <;> simp [hop]
    obtain ⟨t, hstep⟩ := step_completes (mt (State.presents_command hin).1 hne)
    exact ⟨t, hstep, (refusedByModel_of_step_of_not_refused hs hstep).2 ⟨hseeded, w, rest, hin, hop⟩⟩

theorem modelStep_reports_the_core_iff :
    (∃ t, modelStep s = .next t ∧ step s = .next t) ↔
      ¬ s.Presents (· = 3) ∧ ¬ (s.seeded = false ∧ s.Presents fun op => op = 1 ∨ op = 2) := by
  constructor
  · rintro ⟨t, hmodel, hstep⟩
    refine ⟨step_eq_next_iff.1 ⟨t, hstep⟩, fun hunseeded => ?_⟩
    rw [(modelStep_refuses_unseeded_step_iff hs).2 hunseeded] at hmodel
    cases hmodel
  · rintro ⟨hcode, hunseeded⟩
    obtain ⟨t, hstep⟩ := step_completes hcode
    have hghost := mt (refusedByModel_of_step_of_not_refused hs hstep).1 hunseeded
    exact ⟨t, by rw [modelStep_of_next hstep, if_neg hghost], hstep⟩

end

/-- The words the model lets pass: no reserved code, and no step command on unseeded lanes (R65, R107). -/
theorem not_presents_refused_word_iff :
    (¬ s.Presents (· = 3) ∧ ¬ (s.seeded = false ∧ s.Presents fun op => op = 1 ∨ op = 2)) ↔
      ∀ w rest, s.inputs = .command w :: rest → opField w = 0 ∨ (opField w ≠ 3 ∧ s.seeded = true) := by
  have hword (op : BitVec 2) :
      (op ≠ 3 ∧ ¬ (s.seeded = false ∧ (op = 1 ∨ op = 2))) ↔ op = 0 ∨ (op ≠ 3 ∧ s.seeded = true) := by
    obtain rfl | rfl | rfl | rfl := opcode_cases op <;> simp
  simp only [← hword, not_and, State.not_presents_iff]
  exact ⟨fun ⟨hcode, hsteps⟩ w rest hin => ⟨hcode w rest hin, fun hseeded => hsteps hseeded w rest hin⟩,
    fun h => ⟨fun w rest hin => (h w rest hin).1, fun hseeded w rest hin => (h w rest hin).2 hseeded⟩⟩

/-- Once made, a refusal is kept by every step, a reset too (R176; log entry 3). -/
theorem step_keeps_refusedByModel (hs : s.refusedByModel = true) (h : step s = .next t) : t.refusedByModel = true :=
  (refusedByModel_of_step h).2 (.inl hs)

/-- A refused run answers no further step: the next state of the core would be refused still, and a stop of the core is
a refusal too. -/
theorem modelStep_of_refusedByModel (hs : s.refusedByModel = true) : ∃ r, modelStep s = .refused r := by
  cases hstep : step s with
  | next t => exact ⟨_, modelStep_eq_unseededStep_iff.2 ⟨t, hstep, step_keeps_refusedByModel hs hstep⟩⟩
  | fault f => cases f
  | refused r => exact ⟨_, modelStep_of_refused hstep⟩

end

/-- Settles O49: the reports of the model in a run not refused so far, by the word presented, and the ghost that keeps a
refusal. -/
theorem modelRefusesAStepBeforeInit : Obligations.ModelRefusesAStepBeforeInit := by
  refine ⟨fun s hs => ⟨modelStep_refuses_unseeded_step_iff hs, ?reserved, ?next⟩,
    fun _ _ => step_keeps_refusedByModel, fun s hs k => ?kept⟩
  case reserved => exact modelStep_eq_ofCore_iff.trans step_eq_refused_iff
  case next => exact (modelStep_reports_the_core_iff hs).trans not_presents_refused_word_iff
  case kept =>
    obtain ⟨r, hmodel⟩ := modelStep_of_refusedByModel hs
    exact ⟨r, runWith_of_refused k hmodel⟩

end Sys2Proof.Safety
end

section
namespace Sys2Proof.Machine

/-! ### What a reset reads and leaves (R190, R191) -/

/-- Of the state it meets, a reset reads the inputs still to come, the count of resets and the ghost of the refusal. -/
theorem State.resetEvent_congr {s s' : State} (hin : s.inputs = s'.inputs) (hresets : s.resets = s'.resets)
    (hrefused : s.refusedByModel = s'.refusedByModel) : s.resetEvent = s'.resetEvent := by
  rw [State.resetEvent, State.resetEvent, hin, hresets, hrefused]

end Sys2Proof.Machine

namespace Sys2Proof.Safety

open Sys2Proof.Machine

/-- From any two states with the same inputs to come, a reset leaves the same but for the lanes (R33). -/
theorem sameButLanes_resetEvent {s s' : State} (hin : s.inputs = s'.inputs) :
    SameButLanes s.resetEvent s'.resetEvent :=
  ⟨rfl, rfl, hin, rfl⟩

/-- Settles O10: the step is the reset event, of which each clause is a law. -/
theorem resetDiscardsEverything : Obligations.ResetDiscardsEverything := by
  intro s presented rest hin
  refine ⟨(s.consume rest).resetEvent, step_reset hin, rfl, rfl, rfl, rfl,
    fun s' presented' hin' => ?others, fun S b n r presented' => ?replaced⟩
  case others => exact ⟨(s'.consume rest).resetEvent, step_reset hin', sameButLanes_resetEvent rfl⟩
  case replaced => exact (step_reset rfl).trans (congrArg _ (State.resetEvent_congr rfl rfl rfl))

end Sys2Proof.Safety
end

section
namespace Sys2Proof.Machine

/-! ### The inputs after a step (R46, R47) -/

/-- No command touches the inputs still to come. -/
theorem exec_inputs {i : Instr} {s t : State} (h : exec i s = .next t) : t.inputs = s.inputs := by
  obtain ⟨seed, rfl⟩ | ⟨kind, rfl⟩ := instr_cases i
  · exact (exec_init_frame h).1
  · rw [exec_stepKind] at h
    exact (advanceStream_frame h).1

/-- A step consumes one input, if there is one. -/
theorem step_inputs {s t : State} (h : step s = .next t) : t.inputs = s.inputs.tail := by
  cases hin : s.inputs with
  | nil =>
    rw [step_idle hin] at h
    cases h
    exact hin
  | cons head rest =>
    cases head with
    | takeResponse =>
      rw [step_takeResponse hin] at h
      cases h
      rfl
    | reset presented =>
      rw [step_reset hin] at h
      cases h
      rfl
    | command w =>
      cases hd : decode w with
      | command i =>
        rw [step_command hin hd] at h
        exact exec_inputs h
      | reserved arg =>
        rw [step_reserved hin hd] at h
        cases h

end Sys2Proof.Machine

namespace Sys2Proof.Safety

open Sys2Proof.Machine

/-! ### Runs that keep an invariant -/

section
variable {R : Type} {oneStep : State → Host.Outcome State Fault R}

/-- If every state that satisfies `P` is answered by a next state that does, so is a run of any length. -/
theorem runWith_keeps {P : State → Prop} (hstep : ∀ s, P s → ∃ t, oneStep s = .next t ∧ P t) (k : Nat) {s : State}
    (h : P s) : ∃ t, runWith oneStep k s = .next t ∧ P t := by
  induction k generalizing s with
  | zero => exact ⟨s, rfl, h⟩
  | succ k ih =>
    obtain ⟨u, hone, hu⟩ := hstep s h
    rw [runWith_of_next k hone]
    exact ih hu

/-- A machine that answers every step another one answers, answers its runs too. -/
theorem runWith_eq_next_of_step {Q : Type} {otherStep : State → Host.Outcome State Fault Q}
    (hstep : ∀ s t, oneStep s = .next t → otherStep s = .next t) {k : Nat} {s t : State}
    (h : runWith oneStep k s = .next t) : runWith otherStep k s = .next t := by
  induction k generalizing s with
  | zero =>
    cases h
    rfl
  | succ k ih =>
    cases hone : oneStep s with
    | next u =>
      rw [runWith_of_next k hone] at h
      rw [runWith_of_next k (hstep s u hone)]
      exact ih h
    | fault f => cases f
    | refused r =>
      rw [runWith_of_refused k hone] at h
      cases h

end

/-- The model answers a next state only where the core does, and only in a run not refused (R176). -/
theorem step_of_modelStep {s t : State} (h : modelStep s = .next t) : step s = .next t ∧ t.refusedByModel = false := by
  cases hstep : step s with
  | next u =>
    rw [modelStep_of_next hstep] at h
    split at h
    · cases h
    · next hghost =>
      cases h
      exact ⟨rfl, Bool.eq_false_of_not_eq_true hghost⟩
  | fault f => cases f
  | refused r =>
    rw [modelStep_of_refused hstep] at h
    cases h

/-! ### A host that never sends the reserved code (R65) -/

theorem neverSendsReserved_command {w : CommandWord} {i : Instr} (hd : decode w = .command i)
    (rest : List HostInput) : neverSendsReserved (.command w :: rest) = neverSendsReserved rest := by
  simp [neverSendsReserved, hd]

theorem neverSendsReserved_reserved {w : CommandWord} {arg : Word} (hd : decode w = .reserved arg)
    (rest : List HostInput) : neverSendsReserved (.command w :: rest) = false := by
  simp [neverSendsReserved, hd]

theorem neverSendsReserved_tail {inputs : List HostInput} (h : neverSendsReserved inputs = true) :
    neverSendsReserved inputs.tail = true := by
  cases inputs with
  | nil => rfl
  | cons head rest =>
    cases head with
    | takeResponse => exact h
    | reset presented => exact h
    | command w =>
      cases hd : decode w with
      | command i => rwa [neverSendsReserved_command hd] at h
      | reserved arg =>
        rw [neverSendsReserved_reserved hd] at h
        cases h

theorem not_presents_reserved_of_neverSendsReserved {s : State} (h : neverSendsReserved s.inputs = true) :
    ¬ s.Presents (· = 3) := by
  rintro ⟨w, rest, hin, hop⟩
  rw [hin, neverSendsReserved_reserved (decode_of_opField_three hop)] at h
  cases h

/-- The core answers such a host, which goes on never to send the code. -/
theorem step_of_neverSendsReserved (s : State) (h : neverSendsReserved s.inputs = true) :
    ∃ t, step s = .next t ∧ neverSendsReserved t.inputs = true := by
  obtain ⟨t, hstep⟩ := step_completes (not_presents_reserved_of_neverSendsReserved h)
  exact ⟨t, hstep, by rw [step_inputs hstep]; exact neverSendsReserved_tail h⟩

/-! ### A host that keeps its whole contract (R65, R192) -/

/-- The next command word under the contract: an `INIT`, or a step command on seeded lanes. -/
theorem opField_of_obeysContract {b : Bool} {w : CommandWord} {rest : List HostInput}
    (h : obeysContract b (.command w :: rest) = true) : opField w = 0 ∨ (opField w ≠ 3 ∧ b = true) := by
  cases hd : decode w with
  | reserved arg =>
    rw [obeysContract_reserved hd] at h
    cases h
  | command i =>
    rw [opField_of_decode hd]
    obtain ⟨seed, rfl⟩ | ⟨kind, rfl⟩ := instr_cases i
    · exact .inl rfl
    · rw [obeysContract_stepKind hd, Bool.and_eq_true] at h
      have hne : kind.instr.opcode ≠ 3 := by cases kind <;> decide
      exact .inr ⟨hne, h.1⟩

/-- The invariant of a run the model does not refuse: it has not refused so far, and the host keeps its contract. -/
def InContract (s : State) : Prop := s.refusedByModel = false ∧ obeysContract s.seeded s.inputs = true

/-- In a run not refused the model answers such a host, which goes on to keep its contract. -/
theorem modelStep_of_inContract (s : State) (h : InContract s) : ∃ t, modelStep s = .next t ∧ InContract t := by
  obtain ⟨hghost, hobeys⟩ := h
  have hwords : ∀ w rest, s.inputs = .command w :: rest → opField w = 0 ∨ (opField w ≠ 3 ∧ s.seeded = true) :=
    fun w rest hin => opField_of_obeysContract (hin ▸ hobeys)
  obtain ⟨t, hmodel, hstep⟩ := (modelStep_reports_the_core_iff hghost).2 (not_presents_refused_word_iff.2 hwords)
  exact ⟨t, hmodel, (step_of_modelStep hmodel).2, step_keeps_obeysContract hobeys hstep⟩

/-- Settles O46: each clause is an invariant that one step keeps, and the core follows the model's run. -/
theorem contractPreventsEveryRefusal : Obligations.ContractPreventsEveryRefusal := by
  refine ⟨fun s h k => runWith_keeps step_of_neverSendsReserved k h, fun s hghost hobeys k => ?model⟩
  case model =>
    obtain ⟨t, hrun, hghost', hobeys'⟩ := runWith_keeps modelStep_of_inContract k ⟨hghost, hobeys⟩
    have hcore : runSteps k s = .next t :=
      runWith_eq_next_of_step (fun _ _ hmodel => (step_of_modelStep hmodel).1) hrun
    exact ⟨t, hrun, hcore, hghost', hobeys'⟩

end Sys2Proof.Safety
end

section
namespace Sys2Proof

/-! ### Numbers of the opcode table, as the code and the `arg` they are made of (R60, R65) -/

/-- The table's number for a code with its `arg`, decoded as that command word is. -/
theorem decodeTableWord_fields {nbits : Nat} {op : BitVec 2} {arg : Word} {i : Instr} (h : 66 ≤ nbits)
    (hd : decode (commandWord op arg) = .command i) :
    decodeTableWord nbits (op.toNat * 2 ^ 64 + arg.toNat) = some i := by
  rw [← commandWord_toNat]
  exact decodeTableWord_toNat h hd

/-- The table's number for the reserved code is refused, whatever the `arg`. -/
theorem decodeTableWord_reserved {nbits : Nat} (h : 66 ≤ nbits) (arg : Word) :
    decodeTableWord nbits (3 * 2 ^ 64 + arg.toNat) = none := by
  have hword : (commandWord 3#2 arg).toNat = 3 * 2 ^ 64 + arg.toNat := commandWord_toNat 3#2 arg
  rw [← hword, decodeTableWord, tableCommandWord_toNat h]
  simp only [decode_commandWord_three]

/-- Settles O5: each number is a code and an `arg`, decoded by that code's row of the decoder; the two with the code 3
are refused. -/
theorem writtenWordsDecode : Obligations.WrittenWordsDecode := by
  have hport : 66 ≤ 72 := by decide
  exact ⟨decodeTableWord_fields hport (decode_commandWord_zero 0x0123456789ABCDEF),
    decodeTableWord_fields hport (decode_commandWord_zero 0xFFFFFFFFFFFFFFFF),
    decodeTableWord_fields hport (decode_commandWord_one 0),
    decodeTableWord_fields hport (decode_commandWord_one 0xFFFFFFFFFFFFFFFF),
    decodeTableWord_fields hport (decode_commandWord_two 0),
    decodeTableWord_fields hport (decode_commandWord_two 0x8000000000000000),
    decodeTableWord_reserved hport 0,
    decodeTableWord_reserved hport 0xFFFFFFFFFFFFFFFF⟩

end Sys2Proof
end
